-- ==== Sys2Proof/Word.lean ====
section
/-! DEFINITION. The bit widths the spec names (00_scope.md R7): words of the ports and bytes of the frame. -/

namespace Sys2Proof

/-- A byte: frame bytes, register numbers, values and mode codes. -/
abbrev Byte := BitVec 8

/-- 32-bit words: the adaptation delay, the handle, a transport answer (R30, R31, R98). -/
abbrev Word32 := BitVec 32

/-- A host command word CW (30_encoding.md R91). -/
abbrev CommandWord := BitVec 48

/-- A response word RW (30_encoding.md R95). -/
abbrev ResponseWord := BitVec 96

/-- A transport request word TQ (30_encoding.md R97). -/
abbrev RequestWord := BitVec 56

/-- A transformed frame value, nine bits because the transform is not masked (42_deobfuscation.md R163). -/
abbrev Wide := BitVec 9

end Sys2Proof
end

