-- ==== Sys2Proof/Config.lean ====
section
/-! DEFINITION. The parameters of the block with the values this hardware takes (00_scope.md R6). -/

namespace Sys2Proof.Config

/-- `DEV_ADDR`, the 7-bit bus address of the peripheral. -/
def devAddr : Byte := 0x52

/-- `FRAME_LEN`, bytes in one raw frame. -/
def frameLen : Nat := 6

/-- `MIN_DELAY`, the floor of the adaptation delay in microseconds. -/
def minDelay : Word32 := 300

/-- `DEFAULT_DELAY`, supplied by the host side (30_encoding.md R104). -/
def defaultDelay : Word32 := 500

/-- `XOR_K` of the transform (42_deobfuscation.md R160). -/
def xorK : Nat := 0x17

/-- `ADD_K` of the transform (42_deobfuscation.md R160). -/
def addK : Nat := 0x17

/-- `REG_OBF` and `VAL_OBF`: the write that selects Obfuscated mode. -/
def regObf : Byte := 0x40
@[inherit_doc regObf] def valObf : Byte := 0x00

/-- `REG_PL1` and `VAL_PL1`: the first write that selects Plain mode. -/
def regPl1 : Byte := 0xF0
@[inherit_doc regPl1] def valPl1 : Byte := 0x55

/-- `REG_PL2` and `VAL_PL2`: the second write that selects Plain mode. -/
def regPl2 : Byte := 0xFB
@[inherit_doc regPl2] def valPl2 : Byte := 0x00

/-- `REQ_BYTE`, the request byte of every read cycle. -/
def reqByte : Byte := 0x00

/-- `WRITE_STATUS_CHECKED` (20_memory.md R77, U13): false, the statuses of bus writes are not read. Log entry 11. -/
def writeStatusChecked : Bool := false

/-- `DECODE_MASKED` (U12): false, the transform is not reduced to eight bits. Log entry 12. -/
def decodeMasked : Bool := false

end Sys2Proof.Config
end

