-- ==== Sys2Proof/Syntax.lean ====
section
/-! DEFINITION. The instructions: one constructor for each row of spec/opcode_table.json. -/

namespace Sys2Proof

/-- The four host commands (30_encoding.md R92) and the four transport operations (20_memory.md R66). A transport
request keeps all three fields of its word (R97), also those that are always zero for its operation, so that no bit of
a decoded word is dropped. -/
inductive Instr where
  /-- INIT (40_session_init.md R120): `delay` = CW[47:16], `mode` = CW[15:8]. -/
  | init (delay : Word32) (mode : Byte)
  /-- RDRAW (41_read_cycle.md R140). CW[47:8] is ignored (R107). -/
  | rdraw
  /-- RDVAL (44_value_mapper_and_query.md R190). CW[47:8] is ignored. -/
  | rdval
  /-- ISOBF (44_value_mapper_and_query.md R192). CW[47:8] is ignored. -/
  | isobf
  /-- T.OPEN (40_session_init.md R122): `val` is the device address. -/
  | tOpen (reg val : Byte) (handle : Word32)
  /-- T.WRITE_BYTE (41_read_cycle.md R142): `val` is the byte written. -/
  | tWriteByte (reg val : Byte) (handle : Word32)
  /-- T.WRITE_REG (40_session_init.md R123 to R125): register `reg` takes `val`. -/
  | tWriteReg (reg val : Byte) (handle : Word32)
  /-- T.READ_BYTE (41_read_cycle.md R144). -/
  | tReadByte (reg val : Byte) (handle : Word32)
  deriving DecidableEq, Repr

end Sys2Proof
end

