-- ==== Sys2Proof/WellFormed.lean ====
section
/-! DEFINITION. Which instructions have the form the spec gives them. -/

namespace Sys2Proof

/-- The form of an instruction: every command is well formed, whatever its operands (an illegal operand of INIT is a
ConfigurationError when it runs, 30_encoding.md R108); in a transport request the fields its operation does not use are
zero (30_encoding.md R97). -/
def Instr.wellFormed : Instr → Bool
  | .init _ _ => true
  | .rdraw => true
  | .rdval => true
  | .isobf => true
  | .tOpen reg _ handle => reg == 0 && handle == 0
  | .tWriteByte reg _ _ => reg == 0
  | .tWriteReg _ _ _ => true
  | .tReadByte reg val _ => reg == 0 && val == 0

/-- The transport requests the block emits, and no others (30_encoding.md R101), for a session whose handle is `h`. -/
def Instr.emitted (h : Word32) : Instr → Bool
  | .init _ _ => false
  | .rdraw => false
  | .rdval => false
  | .isobf => false
  | .tOpen reg val handle => reg == 0 && val == Config.devAddr && handle == 0
  | .tWriteByte reg val handle => reg == 0 && val == Config.reqByte && handle == h
  | .tWriteReg reg val handle =>
      ((reg == Config.regObf && val == Config.valObf) || (reg == Config.regPl1 && val == Config.valPl1)
        || (reg == Config.regPl2 && val == Config.valPl2)) && handle == h
  | .tReadByte reg val handle => reg == 0 && val == 0 && handle == h

end Sys2Proof
end

