-- ==== Sys2Proof/Decode.lean ====
section
/-! DEFINITION. Decoding of command words (30_encoding.md R103) and of transport request words (R97), total on every
word and rejecting by name; then the encoder, from the same tables. -/

namespace Sys2Proof

/-- Why a word decodes to no instruction. -/
inductive Reject where
  /-- A command word whose opcode is 0x00 or 0x05..0xFF (R103, R108). -/
  | illegalOpcode (op : Byte)
  /-- A request word whose low byte names no transport operation (R97: bits [7:2] are zero, `t_op` is 0 to 3). -/
  | undefinedRequest (op : Byte)
  deriving DecidableEq, Repr

/-- `v[7:0]`, where both formats keep the opcode. -/
def opcodeOf {n : Nat} (w : BitVec n) : Byte := w.extractLsb' 0 8

/-- The command a 48-bit word stands for. Only INIT reads the bits above the opcode (R103, R107). -/
def decodeCommand (w : CommandWord) : Except Reject Instr :=
  let op := opcodeOf w
  if op = 0x01 then .ok (.init (w.extractLsb' 16 32) (w.extractLsb' 8 8))
  else if op = 0x02 then .ok .rdraw
  else if op = 0x03 then .ok .rdval
  else if op = 0x04 then .ok .isobf
  else .error (.illegalOpcode op)

/-- The transport operation a 56-bit request word stands for (R97, R103). -/
def decodeRequest (w : RequestWord) : Except Reject Instr :=
  let op := opcodeOf w
  let reg : Byte := w.extractLsb' 8 8
  let val : Byte := w.extractLsb' 16 8
  let handle : Word32 := w.extractLsb' 24 32
  if op = 0x00 then .ok (.tOpen reg val handle)
  else if op = 0x01 then .ok (.tWriteByte reg val handle)
  else if op = 0x02 then .ok (.tWriteReg reg val handle)
  else if op = 0x03 then .ok (.tReadByte reg val handle)
  else .error (.undefinedRequest op)

/-- A word of one of the two formats that carry instructions. -/
inductive Encoded where
  /-- A command word CW (R91). -/
  | command (w : CommandWord)
  /-- A transport request word TQ (R97). -/
  | request (w : RequestWord)
  deriving DecidableEq, Repr

/-- Decoding, whichever port the word stands at. -/
def decode : Encoded → Except Reject Instr
  | .command w => decodeCommand w
  | .request w => decodeRequest w

/-- A command word from its fields (R91). -/
def commandWord (delay : Word32) (mode op : Byte) : CommandWord := delay ++ mode ++ op

/-- A request word from its fields (R97); `op` is the low byte, `t_op` with six zeros above it. -/
def requestWord (handle : Word32) (val reg op : Byte) : RequestWord := handle ++ val ++ reg ++ op

/-- The word of an instruction. Unused fields of a command assemble to zero (R105). -/
def encode : Instr → Encoded
  | .init delay mode => .command (commandWord delay mode 0x01)
  | .rdraw => .command (commandWord 0 0 0x02)
  | .rdval => .command (commandWord 0 0 0x03)
  | .isobf => .command (commandWord 0 0 0x04)
  | .tOpen reg val handle => .request (requestWord handle val reg 0x00)
  | .tWriteByte reg val handle => .request (requestWord handle val reg 0x01)
  | .tWriteReg reg val handle => .request (requestWord handle val reg 0x02)
  | .tReadByte reg val handle => .request (requestWord handle val reg 0x03)

/-- What the decoder reads from a table row's bits: 48 bits are a command word, 56 a transport request word. The words
are parallel words with bit 0 least significant, so no byte order comes in (20_memory.md R64). -/
def decodeTableWord (nbits w : Nat) : Option Instr :=
  if nbits = 48 then (decodeCommand (BitVec.ofNat 48 w)).toOption
  else if nbits = 56 then (decodeRequest (BitVec.ofNat 56 w)).toOption
  else none

end Sys2Proof
end

