-- ==== Sys2Proof/Machine/State.lean ====
section
/-! DEFINITION. Every piece of state the spec gives the block (10_state.md R20), the state of its ports (R37 to R41), the
event trace (20_memory.md R70), the ways a step can stop, and the state after reset (R50). -/

namespace Sys2Proof.Machine

/-- `SESS` (10_state.md R28); the two-bit code 3 is never taken. -/
inductive Session where
  | uninit
  | ready
  | failed
  deriving DecidableEq, Repr

/-- `SEQ`, the sequencer phase (10_state.md R24): idle, or the next micro-step of the command in progress. -/
inductive Phase where
  | idle
  | iOpen
  | iWObf
  | iWPl1
  | iWPl2
  | iWait
  | rReq
  | rWait
  | rFetch
  | rDecode
  deriving DecidableEq, Repr

/-- The result file `x[0..6]` (10_state.md R21): the seven fields of a Decoded Sample with their register widths. -/
structure Sample where
  jx : BitVec 9
  jy : BitVec 9
  ax : BitVec 11
  ay : BitVec 11
  az : BitVec 11
  bc : BitVec 1
  bz : BitVec 1
  deriving DecidableEq, Repr

/-- The cleared result file. -/
def Sample.zero : Sample := ⟨0, 0, 0, 0, 0, 0, 0⟩

/-- One event of the event trace (20_memory.md R70). The answer is recorded with `Open` and `ReadByte`; `none` while it
has not arrived. -/
inductive Event where
  | busOpen (addr : Byte) (answer : Option Word32)
  | busWriteReg (handle : Word32) (reg val : Byte)
  | busWriteByte (handle : Word32) (val : Byte)
  | wait (duration : Word32)
  | busReadByte (handle : Word32) (answer : Option Word32)
  deriving DecidableEq, Repr

/-- The levels of the block's inputs in one step: `rst` (R41), the transport's answer (`none` is `t_ack_valid = 0`, R39)
and `w_done` (R40). Log entry 2. -/
structure Inputs where
  rst : Bool
  ack : Option Word32
  wDone : Bool
  deriving DecidableEq, Repr

/-- No input active. -/
def Inputs.quiet : Inputs := ⟨false, none, false⟩

/-- The five ways a command ends in error (60_exceptions.md R200). -/
inductive ErrorKind where
  | configuration
  | deviceUnavailable
  | deviceRead
  | stateRefusal
  | illegalCommand
  deriving DecidableEq, Repr

/-- Why the machine stops with a fault. -/
inductive Fault where
  /-- `R_DECODE` read a frame byte that nothing has written since reset. Raised by the `R_DECODE` micro-step; 10_state.md
  R51 permits it and no run of the rules reaches it. Safe: the model stops where the hardware would go on with whatever
  the byte holds. Log entry 5. -/
  | frameByteUnwritten
  /-- A byte was to be stored at a frame index above 5, which does not exist (20_memory.md R60). Raised by T.READ_BYTE
  when CNT exceeds 5; no run reaches it (R33). Safe. Log entry 14. -/
  | frameIndexAbsent
  deriving DecidableEq, Repr

/-- Why the machine refuses a step. -/
inductive Refusal where
  /-- The instruction has no meaning in this model yet. Raised by exec alone. Safe. -/
  | notModelled (mnemonic : String)
  /-- The request register holds a word that names no transport operation (30_encoding.md R97). Raised by the fetch of a
  transport micro-step; no run reaches it, since the block emits only the requests of R101. Safe. Log entry 13. -/
  | undefinedRequest
  /-- A bus write was answered with a negative status while `WRITE_STATUS_CHECKED` is true (20_memory.md R77). Raised by
  T.WRITE_BYTE and T.WRITE_REG; never in this hardware, where the parameter is false. Safe. Log entry 11. -/
  | writeStatusNegative
  deriving DecidableEq, Repr

/-- The state of the machine. -/
structure State where
  /-- `SESS` (R28). -/
  sess : Session
  /-- `OBF`, the mode flag: true is Obfuscated (R26). -/
  obf : Bool
  /-- `DELAY`, microseconds, unsigned (R30). -/
  delay : Word32
  /-- `HANDLE`, negative exactly when bit 31 is set (R31). -/
  handle : Word32
  /-- `M_LAT`, the mode requested by the INIT in progress (R29). -/
  mLat : Bool
  /-- `SEQ` (R24). -/
  seq : Phase
  /-- `CNT`, the index of the next frame byte (R33). -/
  cnt : BitVec 3
  /-- `FRAME`, the bytes written so far, in the canonical form of `Memory.wf` (20_memory.md R60). -/
  frame : List Host.Cell
  /-- `R_VALID` (R32). -/
  rValid : Bool
  /-- `R_STATUS` (R32). -/
  rStatus : Byte
  /-- `R_OBF` (R32). -/
  rObf : Bool
  /-- The result file (R21). -/
  x : Sample
  /-- `t_req_valid`: a transport request has been issued and is not answered (R39). -/
  tReqValid : Bool
  /-- `t_req_word`: the request of the phase (R39). Log entry 6. -/
  tReqWord : RequestWord
  /-- `w_start`: a wait has been issued and has not ended (R40). -/
  wStart : Bool
  /-- The command words the host presents, the next one first; non-empty is `cmd_valid` (R37). Log entry 1. -/
  cmds : List CommandWord
  /-- The inputs in this step. Log entry 2. -/
  inputs : Inputs
  /-- The inputs in the steps to come; past its end no input is active. Log entry 2. -/
  later : List Inputs
  /-- The event trace, newest event first (20_memory.md R70). Log entry 8. -/
  trace : List Event
  deriving DecidableEq, Repr

/-- The machine right after reset (10_state.md R50). The elements R50 leaves unspecified take the values of log entries
4, 5 and 6; the host presents nothing, no input is active and nothing has been issued. -/
def State.reset : State where
  sess := .uninit
  obf := false
  delay := 0
  handle := 0
  mLat := false
  seq := .idle
  cnt := 0
  frame := []
  rValid := false
  rStatus := 0
  rObf := false
  x := Sample.zero
  tReqValid := false
  tReqWord := 0
  wStart := false
  cmds := []
  inputs := Inputs.quiet
  later := []
  trace := []

end Sys2Proof.Machine
end

