-- ==== Sys2Proof/Machine/Flags.lean ====
section
/-! DEFINITION. Conditions the rules test. The block has no condition codes and no carry or overflow flag (10_state.md
R27); what it has is two derived conditions, the outputs computed from them, and the sign of a transport answer. -/

namespace Sys2Proof.Machine

/-- The two-bit code of `SESS` (10_state.md R28). -/
def Session.code : Session → BitVec 2
  | .uninit => 0
  | .ready => 1
  | .failed => 2

/-- `busy`: a command is in progress (10_state.md R27). -/
def State.busy (s : State) : Bool := s.seq != .idle

/-- `ready`: the session is Ready (10_state.md R27). -/
def State.ready (s : State) : Bool := s.sess == .ready

/-- `cmd_ready` (10_state.md R37). -/
def State.cmdReady (s : State) : Bool := s.seq == .idle

/-- `rsp_valid` (10_state.md R38). -/
def State.rspValid (s : State) : Bool := s.rValid

/-- `w_dur`, always the adaptation delay (10_state.md R40, 30_encoding.md R99). -/
def State.wDur (s : State) : Word32 := s.delay

/-- The mode bit of a response: the session is Ready and Obfuscated (10_state.md R36). -/
def State.modeBit (s : State) : Bool := s.ready && s.obf

/-- A transport answer is a failure exactly when it is negative (30_encoding.md R98). -/
def negative (r : Word32) : Bool := r.msb

/-- The mode codes that name a mode (30_encoding.md R93). -/
def modeRecognised (mode : Byte) : Bool := mode == 0x00 || mode == 0x01

end Sys2Proof.Machine
end

