-- ==== Sys2Proof/Machine/Operands.lean ====
section
/-! DEFINITION. The data path: the de-obfuscation transform (42_deobfuscation.md), the unpacker (43_frame_unpack.md), the
response word and its grouped reading (30_encoding.md R95, 44_value_mapper_and_query.md R191). Arithmetic is on naturals
and narrowed at the end (00_scope.md R7, 43_frame_unpack.md R181). -/

namespace Sys2Proof.Machine

/-- `decode(b) = (b XOR 0x17) + 0x17`, with no truncation (42_deobfuscation.md R160). -/
def decodeNat (b : Byte) : Nat :=
  let v := (b.toNat ^^^ Config.xorK) + Config.addK
  if Config.decodeMasked then v % 256 else v

/-- The transform as the nine-bit value that holds it (R163). -/
def decodeByte (b : Byte) : Wide := BitVec.ofNat 9 (decodeNat b)

/-- One transformed value `d[k]` (42_deobfuscation.md R161). -/
def transformed (obf : Bool) (b : Byte) : Wide := if obf then decodeByte b else b.setWidth 9

/-- The raw frame, `b0` fetched first (30_encoding.md R100). -/
structure RawFrame where
  b0 : Byte
  b1 : Byte
  b2 : Byte
  b3 : Byte
  b4 : Byte
  b5 : Byte
  deriving DecidableEq, Repr

/-- The seven fields on naturals, in the order joystickX, joystickY, accelX, accelY, accelZ, buttonC, buttonZ. -/
structure Fields where
  joystickX : Nat
  joystickY : Nat
  accelX : Nat
  accelY : Nat
  accelZ : Nat
  buttonC : Nat
  buttonZ : Nat
  deriving DecidableEq, Repr

/-- An accelerometer axis: the high value shifted by two, with the two bits of `d5` under `mask` at `shift` below it
(43_frame_unpack.md R173 to R175). -/
def axis (high d5 mask shift : Nat) : Nat := (high <<< 2) ||| ((d5 &&& mask) >>> shift)

/-- The whole unpacker (43_frame_unpack.md R183). -/
def unpack (d0 d1 d2 d3 d4 d5 : Nat) : Fields where
  joystickX := d0
  joystickY := d1
  accelX := axis d2 d5 0xC0 6
  accelY := axis d3 d5 0x30 4
  accelZ := axis d4 d5 0x0C 2
  buttonC := (d5 &&& 0x02) >>> 1
  buttonZ := d5 &&& 0x01

/-- The fields in the widths of the result file (10_state.md R21, 43_frame_unpack.md R178). -/
def Fields.toSample (f : Fields) : Sample where
  jx := BitVec.ofNat 9 f.joystickX
  jy := BitVec.ofNat 9 f.joystickY
  ax := BitVec.ofNat 11 f.accelX
  ay := BitVec.ofNat 11 f.accelY
  az := BitVec.ofNat 11 f.accelZ
  bc := BitVec.ofNat 1 f.buttonC
  bz := BitVec.ofNat 1 f.buttonZ

/-- The fields of a raw frame in a session mode: each byte transformed on its own, then unpacked
(41_read_cycle.md R145). -/
def fieldsOf (obf : Bool) (f : RawFrame) : Fields :=
  let d (b : Byte) : Nat := (transformed obf b).toNat
  unpack (d f.b0) (d f.b1) (d f.b2) (d f.b3) (d f.b4) (d f.b5)

/-- The sample that `R_DECODE` writes (41_read_cycle.md R145). -/
def sampleOf (obf : Bool) (f : RawFrame) : Sample := (fieldsOf obf f).toSample

/-- `x[i]`, a result register by number (00_scope.md R8, 10_state.md R21). -/
def Sample.reg (x : Sample) : Fin 7 → Nat
  | 0 => x.jx.toNat
  | 1 => x.jy.toNat
  | 2 => x.ax.toNat
  | 3 => x.ay.toNat
  | 4 => x.az.toNat
  | 5 => x.bc.toNat
  | 6 => x.bz.toNat

/-- The status code of an error (30_encoding.md R96). -/
def ErrorKind.code : ErrorKind → Byte
  | .configuration => 0x01
  | .deviceUnavailable => 0x02
  | .deviceRead => 0x03
  | .stateRefusal => 0x04
  | .illegalCommand => 0x05

/-- The status code of success (30_encoding.md R96). -/
def statusOk : Byte := 0x00

/-- `rsp_word`, the view of the response holding register (30_encoding.md R95). -/
def State.rspWord (s : State) : ResponseWord :=
  s.x.az.setWidth 16 ++ s.x.ay.setWidth 16 ++ s.x.ax.setWidth 16 ++ s.x.jy.setWidth 16 ++ s.x.jx.setWidth 16 ++
    (0 : BitVec 5) ++ s.x.bz ++ s.x.bc ++ BitVec.ofBool s.rObf ++ s.rStatus

/-- The named structures of RDVAL (44_value_mapper_and_query.md R191). -/
structure Grouped where
  joystickX : BitVec 16
  joystickY : BitVec 16
  accelerometerX : BitVec 16
  accelerometerY : BitVec 16
  accelerometerZ : BitVec 16
  buttonCPressed : BitVec 1
  buttonZPressed : BitVec 1
  deriving DecidableEq, Repr

/-- The grouping map of RDVAL over a response word (44_value_mapper_and_query.md R191). -/
def grouped (rw : ResponseWord) : Grouped where
  joystickX := rw.extractLsb' 16 16
  joystickY := rw.extractLsb' 32 16
  accelerometerX := rw.extractLsb' 48 16
  accelerometerY := rw.extractLsb' 64 16
  accelerometerZ := rw.extractLsb' 80 16
  buttonCPressed := rw.extractLsb' 9 1
  buttonZPressed := rw.extractLsb' 10 1

end Sys2Proof.Machine
end

