-- ==== Sys2Proof/Machine/Ops.lean ====
section
/-! DEFINITION. The shared operations: the frame buffer, the response holding register, the ending of a command in error,
the phases with their request words, one transport micro-step and one wait, and the reset input. -/

namespace Sys2Proof.Machine

/-! ### The frame buffer (20_memory.md R60) -/

/-- Addresses strictly rise, each above `low`, and stay below the frame length. -/
def Memory.above (low : Nat) : List Host.Cell → Bool
  | [] => true
  | c :: cs => decide (low ≤ c.1) && decide (c.1 < Config.frameLen) && Memory.above (c.1 + 1) cs

/-- The canonical form of the frame buffer. An unlisted byte reads as no value, so no listed byte is redundant. -/
def Memory.wf (m : List Host.Cell) : Bool := Memory.above 0 m

/-- `MemRead(k, 1)`: the byte at index `k`, no value where nothing has written it (log entry 5). -/
def Memory.read : List Host.Cell → Nat → Option Byte
  | [], _ => none
  | c :: cs, k => if c.1 = k then some c.2 else Memory.read cs k

/-- Put a byte into its place in the list. -/
def Memory.insert : List Host.Cell → Nat → Byte → List Host.Cell
  | [], k, v => [(k, v)]
  | c :: cs, k, v =>
    if c.1 < k then c :: Memory.insert cs k v
    else if c.1 = k then (k, v) :: cs
    else (k, v) :: c :: cs

/-- `MemWrite(k, 1, v)`; there is no byte above index 5. -/
def Memory.write (m : List Host.Cell) (k : Nat) (v : Byte) : Option (List Host.Cell) :=
  if k < Config.frameLen then some (Memory.insert m k v) else none

/-- All six bytes of the raw frame, if all have been written. -/
def Memory.raw (m : List Host.Cell) : Option RawFrame :=
  match Memory.read m 0, Memory.read m 1, Memory.read m 2, Memory.read m 3, Memory.read m 4, Memory.read m 5 with
  | some b0, some b1, some b2, some b3, some b4, some b5 => some ⟨b0, b1, b2, b3, b4, b5⟩
  | _, _, _, _, _, _ => none

/-! ### The response holding register (10_state.md R32, R36) -/

/-- What the acceptance of any command does first (10_state.md R36). -/
def State.clearResponse (s : State) : State :=
  { s with rValid := false, rStatus := 0, rObf := false, x := Sample.zero }

/-- `Respond(st, sample)`: the mode bit is taken from the state the micro-step leaves, so the caller passes that state
(10_state.md R36). -/
def State.respondWith (s : State) (st : Byte) (sample : Sample) : State :=
  { s with rStatus := st, rObf := s.modeBit, x := sample, rValid := true, seq := .idle }

/-- `Respond(st)`: no sample. -/
def State.respond (s : State) (st : Byte) : State := s.respondWith st Sample.zero

/-- What an error does to `SESS`: a failed open fails the session (60_exceptions.md R202), no other error writes it (R201,
R203 to R205). -/
def ErrorKind.session : ErrorKind → Session → Session
  | .deviceUnavailable, _ => .failed
  | .configuration, old => old
  | .deviceRead, old => old
  | .stateRefusal, old => old
  | .illegalCommand, old => old

/-- `raise E` (60_exceptions.md R200 to R210): the state change of the error, then `Respond` with its code, which puts the
sequencer back in IDLE. Nothing is saved and control goes nowhere; there is no handler and no return from one (R210,
R212). -/
def State.raiseError (s : State) (e : ErrorKind) : State := { s with sess := e.session s.sess }.respond e.code

/-! ### Phases and their requests -/

/-- The request word of a transport phase (30_encoding.md R101), for handle `h`. -/
def Phase.request (h : Word32) : Phase → Option RequestWord
  | .iOpen => some (requestWord 0 Config.devAddr 0 0x00)
  | .iWObf => some (requestWord h Config.valObf Config.regObf 0x02)
  | .iWPl1 => some (requestWord h Config.valPl1 Config.regPl1 0x02)
  | .iWPl2 => some (requestWord h Config.valPl2 Config.regPl2 0x02)
  | .rReq => some (requestWord h Config.reqByte 0 0x01)
  | .rFetch => some (requestWord h 0 0 0x03)
  | .idle => none
  | .iWait => none
  | .rWait => none
  | .rDecode => none

/-- `pc <- S` (00_scope.md R8): the phase, and for a transport phase the word the port will carry (log entry 6). -/
def State.enter (s : State) (p : Phase) : State :=
  { s with seq := p, tReqWord := (p.request s.handle).getD s.tReqWord }

/-- The phase in which an instruction is taken: commands in IDLE (10_state.md R37), each transport request in the
micro-steps that issue it (30_encoding.md R101). -/
def takenIn : Instr → Phase → Bool
  | .init _ _, p => p == .idle
  | .rdraw, p => p == .idle
  | .rdval, p => p == .idle
  | .isobf, p => p == .idle
  | .tOpen _ _ _, p => p == .iOpen
  | .tWriteByte _ _ _, p => p == .rReq
  | .tWriteReg _ _ _, p => p == .iWObf || p == .iWPl1 || p == .iWPl2
  | .tReadByte _ _ _, p => p == .rFetch

/-- An instruction presented in another phase is not taken: a command waits at the port (10_state.md R37), a transport
request is not issued (30_encoding.md R101). Log entry 10. -/
def whenTaken (i : Instr) (s : State) (k : State → Host.Outcome State Fault Refusal) :
    Host.Outcome State Fault Refusal :=
  if takenIn i s.seq then k s else .next s

/-! ### Transport and timing (10_state.md R39, R40; 20_memory.md R70, R71) -/

/-- The operations whose answer the trace records (R70): the status of a write is read by no rule (R77). -/
def Event.recordsAnswer : Event → Bool
  | .busOpen _ _ => true
  | .busReadByte _ _ => true
  | .busWriteReg _ _ _ => false
  | .busWriteByte _ _ => false
  | .wait _ => false

/-- Record an answer with the newest event, which is the one that waits for it. -/
def recordAnswer (r : Word32) : List Event → List Event
  | .busOpen a none :: t => .busOpen a (some r) :: t
  | .busReadByte h none :: t => .busReadByte h (some r) :: t
  | t => t

/-- Issue a request: the event joins the trace once, and the request is outstanding (R70). -/
def State.issue (s : State) (e : Event) : State :=
  { s with tReqValid := true, trace := if s.tReqValid then s.trace else e :: s.trace }

/-- The request is answered: nothing is outstanding, and a recorded answer stands with its event. -/
def State.answered (s : State) (e : Event) (r : Word32) : State :=
  { s with tReqValid := false, trace := if e.recordsAnswer then recordAnswer r s.trace else s.trace }

/-- One transport micro-step: issue the request unless it is already outstanding, and when the answer is there go on
with it. Until then nothing else happens (20_memory.md R71, 60_exceptions.md R228). Log entries 3 and 7. -/
def transact (s : State) (e : Event) (k : Word32 → State → Host.Outcome State Fault Refusal) :
    Host.Outcome State Fault Refusal :=
  match s.inputs.ack with
  | none => .next (s.issue e)
  | some r => k r ((s.issue e).answered e r)

/-- The status of a bus write is not read (20_memory.md R77) unless `WRITE_STATUS_CHECKED` is true, when a negative one
leaves the sequencer with no step (92_eei_decisions.md D14). Log entry 11. -/
def ignoringStatus (r : Word32) (s : State) : Host.Outcome State Fault Refusal :=
  if Config.writeStatusChecked && negative r then .refused .writeStatusNegative else .next s

/-- Ask for a wait of `DELAY` microseconds: the event joins the trace once (R40, R70). -/
def State.startWait (s : State) : State :=
  { s with wStart := true, trace := if s.wStart then s.trace else .wait s.delay :: s.trace }

/-- The wait is over: nothing is outstanding, and the event stands in the trace. -/
def State.endWait (s : State) : State :=
  { s with wStart := false, trace := if s.wStart then s.trace else .wait s.delay :: s.trace }

/-- One wait micro-step: `Wait(DELAY)`, and when the timing collaborator reports its end go on (60_exceptions.md R222). -/
def timedWait (s : State) (k : State → State) : State :=
  if s.inputs.wDone then k s.endWait else s.startWait

/-! ### Reset and the passing of a step -/

/-- The `rst` input (70_reset_and_hazards.md R240, R241): every element of the block as after reset; events already
issued stay in the trace, and what the world outside presents is not the block's to change. Log entry 19. -/
def State.applyReset (s : State) : State :=
  { State.reset with cmds := s.cmds, inputs := s.inputs, later := s.later, trace := s.trace }

/-- A step is over: the next sample of the inputs stands at the ports. -/
def State.advance (s : State) : State :=
  { s with inputs := s.later.headD Inputs.quiet, later := s.later.tail }

/-- The presented command has been accepted and leaves the port (10_state.md R37). -/
def State.takeCommand (s : State) : State := { s with cmds := s.cmds.tail }

/-- Change the next state of an outcome, if there is one. -/
def mapNext (f : State → State) : Host.Outcome State Fault Refusal → Host.Outcome State Fault Refusal
  | .next s => .next (f s)
  | .fault r => .fault r
  | .refused r => .refused r

end Sys2Proof.Machine
end

