-- ==== Sys2Proof/Machine/Init.lean ====
section
/-! DEFINITION. INIT: its acceptance and its wait (40_session_init.md R120, R121, R126). Its transport micro-steps are in
Transport.lean. -/

namespace Sys2Proof.Machine

/-- The acceptance step of INIT (40_session_init.md R121). The session state is tested before the operands
(60_exceptions.md R209). -/
def acceptInit (delay : Word32) (mode : Byte) (s : State) : State :=
  let s := s.clearResponse
  if s.sess ≠ .uninit then s.raiseError .stateRefusal
  else if delay < Config.minDelay then s.raiseError .configuration
  else if modeRecognised mode = false then s.raiseError .configuration
  else { s with delay := delay, mLat := mode.getLsbD 0 }.enter .iOpen

/-- INIT: accepted in IDLE, it starts the initialisation sequence. Log entry 21. -/
def execInit (delay : Word32) (mode : Byte) (s : State) : Host.Outcome State Fault Refusal :=
  whenTaken (.init delay mode) s fun s => .next (acceptInit delay mode s)

/-- The end of the wait of `I_WAIT`: the session is Ready in the requested mode, and the response shows it
(40_session_init.md R126). -/
def finishInit (s : State) : State := { s with obf := s.mLat, sess := .ready }.respond statusOk

/-- The micro-step `I_WAIT` (40_session_init.md R126). -/
def initWait (s : State) : State := timedWait s finishInit

end Sys2Proof.Machine
end

