-- ==== Sys2Proof/Machine/Query.lean ====
section
/-! DEFINITION. ISOBF and the illegal command (44_value_mapper_and_query.md R192, R193). Both are over at acceptance. -/

namespace Sys2Proof.Machine

/-- The one micro-step of ISOBF (44_value_mapper_and_query.md R192). -/
def answerMode (s : State) : State :=
  let s := s.clearResponse
  if s.sess ≠ .ready then s.raiseError .stateRefusal else s.respond statusOk

/-- ISOBF: the response carries the mode bit. -/
def execIsobf (s : State) : Host.Outcome State Fault Refusal :=
  whenTaken .isobf s fun s => .next (answerMode s)

/-- The one micro-step of a word with an undefined opcode, in every session state (44_value_mapper_and_query.md R193). -/
def illegalCommand (s : State) : State := s.clearResponse.raiseError .illegalCommand

end Sys2Proof.Machine
end

