-- ==== Sys2Proof/Machine/ReadCycle.lean ====
section
/-! DEFINITION. RDRAW and RDVAL: acceptance, the wait and the decoding of the frame (41_read_cycle.md R140 to R145,
44_value_mapper_and_query.md R190). The transport micro-steps are in Transport.lean. -/

namespace Sys2Proof.Machine

/-- The acceptance step of a read cycle (41_read_cycle.md R141). -/
def acceptRead (s : State) : State :=
  let s := s.clearResponse
  if s.sess ≠ .ready then s.raiseError .stateRefusal else s.enter .rReq

/-- RDRAW: accepted in IDLE, it starts a read cycle. Log entry 21. -/
def execRdraw (s : State) : Host.Outcome State Fault Refusal :=
  whenTaken .rdraw s fun s => .next (acceptRead s)

/-- RDVAL: a read cycle of its own, read by the host under the names of `grouped` (44_value_mapper_and_query.md R190,
R191). -/
def execRdval (s : State) : Host.Outcome State Fault Refusal :=
  whenTaken .rdval s fun s => .next (acceptRead s)

/-- The end of the wait of `R_WAIT`: the first fetch is next (41_read_cycle.md R143). -/
def startFetching (s : State) : State := { s with cnt := 0 }.enter .rFetch

/-- The micro-step `R_WAIT` (41_read_cycle.md R143). -/
def readWait (s : State) : State := timedWait s startFetching

/-- The micro-step `R_DECODE`: transform, unpack and respond, from the frame and the mode alone (41_read_cycle.md R145,
R147). -/
def readDecode (s : State) : Host.Outcome State Fault Refusal :=
  match Memory.raw s.frame with
  | none => .fault .frameByteUnwritten
  | some f => .next (s.respondWith statusOk (sampleOf s.obf f))

end Sys2Proof.Machine
end

