-- ==== Sys2Proof/Machine/Transport.lean ====
section
/-! DEFINITION. The four transport operations as the micro-steps that issue them (20_memory.md R66; 40_session_init.md
R122 to R125; 41_read_cycle.md R142, R144). -/

namespace Sys2Proof.Machine

/-- What `I_OPEN` does with the answer (40_session_init.md R122). -/
def openAnswered (r : Word32) (s : State) : State :=
  let s := { s with handle := r }
  if negative r then s.raiseError .deviceUnavailable
  else s.enter (if s.mLat then .iWObf else .iWPl1)

/-- T.OPEN, the micro-step `I_OPEN` (40_session_init.md R122). -/
def execTOpen (reg val : Byte) (handle : Word32) (s : State) : Host.Outcome State Fault Refusal :=
  whenTaken (.tOpen reg val handle) s fun s =>
    transact s (.busOpen val none) fun r s => .next (openAnswered r s)

/-- T.WRITE_BYTE, the micro-step `R_REQ` (41_read_cycle.md R142): the status is not read, the wait is next. -/
def execTWriteByte (reg val : Byte) (handle : Word32) (s : State) : Host.Outcome State Fault Refusal :=
  whenTaken (.tWriteByte reg val handle) s fun s =>
    transact s (.busWriteByte handle val) fun r s => ignoringStatus r (s.enter .rWait)

/-- The phase after a register write: only the first write of Plain mode is followed by another
(40_session_init.md R123 to R125). -/
def Phase.afterWrite : Phase → Phase
  | .iWPl1 => .iWPl2
  | _ => .iWait

/-- T.WRITE_REG, the micro-steps `I_W_OBF`, `I_W_PL1` and `I_W_PL2` (40_session_init.md R123 to R125). -/
def execTWriteReg (reg val : Byte) (handle : Word32) (s : State) : Host.Outcome State Fault Refusal :=
  whenTaken (.tWriteReg reg val handle) s fun s =>
    transact s (.busWriteReg handle reg val) fun r s => ignoringStatus r (s.enter s.seq.afterWrite)

/-- What `R_FETCH` does with a byte: store it, then go on to the next fetch or to decoding (41_read_cycle.md R144). -/
def storeByte (v : Byte) (s : State) : Host.Outcome State Fault Refusal :=
  match Memory.write s.frame s.cnt.toNat v with
  | none => .fault .frameIndexAbsent
  | some m =>
    if s.cnt = 5 then .next ({ s with frame := m }.enter .rDecode)
    else .next ({ s with frame := m, cnt := s.cnt + 1 }.enter .rFetch)

/-- T.READ_BYTE, the micro-step `R_FETCH` (41_read_cycle.md R144): a negative answer ends the cycle, otherwise bits
[7:0] are the byte (30_encoding.md R98). -/
def execTReadByte (reg val : Byte) (handle : Word32) (s : State) : Host.Outcome State Fault Refusal :=
  whenTaken (.tReadByte reg val handle) s fun s =>
    transact s (.busReadByte handle none) fun r s =>
      if negative r then .next (s.raiseError .deviceRead) else storeByte (r.extractLsb' 0 8) s

end Sys2Proof.Machine
end

