-- ==== Sys2Proof/Machine/Dispatch.lean ====
section
/-! DEFINITION. The meaning of every instruction, one arm per constructor. -/

namespace Sys2Proof.Machine

def exec (i : Instr) (s : State) : Host.Outcome State Fault Refusal :=
  match i with
  | .init delay mode => Sys2Proof.Machine.execInit delay mode s
  | .rdraw => Sys2Proof.Machine.execRdraw s
  | .rdval => Sys2Proof.Machine.execRdval s
  | .isobf => Sys2Proof.Machine.execIsobf s
  | .tOpen reg val handle => Sys2Proof.Machine.execTOpen reg val handle s
  | .tWriteByte reg val handle => Sys2Proof.Machine.execTWriteByte reg val handle s
  | .tWriteReg reg val handle => Sys2Proof.Machine.execTWriteReg reg val handle s
  | .tReadByte reg val handle => Sys2Proof.Machine.execTReadByte reg val handle s

end Sys2Proof.Machine
end

