-- ==== Sys2Proof/Machine/Fetch.lean ====
section
/-! DEFINITION. What the sequencer runs next (10_state.md R24), and where an instruction is fetched: a command at the
command port in IDLE, a transport request at the request register in a transport phase. -/

namespace Sys2Proof.Machine

/-- The next micro-step. -/
inductive Micro where
  /-- IDLE with no command presented: the block waits (60_exceptions.md R227). -/
  | waitForCommand
  /-- Accept the presented command. -/
  | command (i : Instr)
  /-- Accept the presented word, which is no command (44_value_mapper_and_query.md R193). -/
  | illegal
  /-- The transport request of the phase. -/
  | request (i : Instr)
  /-- The request register holds no transport operation; no run reaches it. -/
  | noRequest
  /-- `I_WAIT`. -/
  | initWait
  /-- `R_WAIT`. -/
  | readWait
  /-- `R_DECODE`. -/
  | readDecode
  deriving DecidableEq, Repr

/-- Fetch at the command port. -/
def fetchCommand : List CommandWord → Micro
  | [] => .waitForCommand
  | w :: _ =>
    match decodeCommand w with
    | .ok i => .command i
    | .error _ => .illegal

/-- Fetch at the request register. -/
def fetchRequest (w : RequestWord) : Micro :=
  match decodeRequest w with
  | .ok i => .request i
  | .error _ => .noRequest

/-- The next micro-step by phase (10_state.md R24). -/
def nextMicro (s : State) : Micro :=
  match s.seq with
  | .idle => fetchCommand s.cmds
  | .iOpen => fetchRequest s.tReqWord
  | .iWObf => fetchRequest s.tReqWord
  | .iWPl1 => fetchRequest s.tReqWord
  | .iWPl2 => fetchRequest s.tReqWord
  | .iWait => .initWait
  | .rReq => fetchRequest s.tReqWord
  | .rWait => .readWait
  | .rFetch => fetchRequest s.tReqWord
  | .rDecode => .readDecode

/-- A phase that issues the operation of a request word; the first register write stands for the three. -/
def phaseOfRequest (w : RequestWord) : Phase :=
  let op := opcodeOf w
  if op = 0x00 then .iOpen
  else if op = 0x01 then .rReq
  else if op = 0x02 then .iWObf
  else .rFetch

/-- The block idle, with a command word at the head of the command port and no reset asserted. -/
def placeCommand (w : CommandWord) (s : State) : State :=
  { s with seq := .idle, cmds := w :: s.cmds, inputs := { s.inputs with rst := false } }

/-- The block in the phase of a request, with the request word in the request register, not yet issued, and no reset
asserted. -/
def placeRequest (w : RequestWord) (s : State) : State :=
  { s with seq := phaseOfRequest w, tReqWord := w, tReqValid := false, inputs := { s.inputs with rst := false } }

end Sys2Proof.Machine
end

