-- ==== Sys2Proof/Machine/Step.lean ====
section
/-! DEFINITION. One step of the machine: one micro-step of the sequencer, or a reset, with the inputs of this step; and the
placing of an instruction where the next step fetches it. -/

namespace Sys2Proof.Machine

/-- The micro-step the phase names (10_state.md R24). An accepted command leaves the port. -/
def microStep (s : State) : Host.Outcome State Fault Refusal :=
  match nextMicro s with
  | .waitForCommand => .next s
  | .command i => exec i s.takeCommand
  | .illegal => .next (illegalCommand s.takeCommand)
  | .request i => exec i s
  | .noRequest => .refused .undefinedRequest
  | .initWait => .next (initWait s)
  | .readWait => .next (readWait s)
  | .readDecode => readDecode s

/-- One step. Reset has priority over every micro-step (70_reset_and_hazards.md R240); afterwards the next sample of the
inputs stands at the ports. -/
def step (s : State) : Host.Outcome State Fault Refusal :=
  if s.inputs.rst then .next s.applyReset.advance else mapNext State.advance (microStep s)

/-- The state with an instruction of `nbits` bits placed where the next step fetches it: 48 bits at the command port, 56
bits in the request register. Log entry 1. -/
def State.withFetchWord (s : State) (nbits w : Nat) : State :=
  if nbits = 48 then placeCommand (BitVec.ofNat 48 w) s
  else if nbits = 56 then placeRequest (BitVec.ofNat 56 w) s
  else s

end Sys2Proof.Machine
end

