-- ==== Sys2Proof/Machine/Assembler.lean ====
section
/-! DEFINITION. The assembler syntax of command sequences and its one pseudo-instruction (30_encoding.md R104, R105), over
the characters of a line. It is the host's side: the block itself receives words only. Log entry 18. -/

namespace Sys2Proof.Machine

/-- Add a finished token, kept reversed while it is read, before the tokens that follow. -/
def pushToken (cur : List Char) (rest : List (List Char)) : List (List Char) :=
  if cur.isEmpty then rest else cur.reverse :: rest

/-- The tokens of a line: blanks separate, a comma is a token of its own, `;` starts a comment. -/
def tokens (cur : List Char) : List Char → List (List Char)
  | [] => pushToken cur []
  | c :: cs =>
    if c = ';' then pushToken cur []
    else if c = ',' then pushToken cur ([','] :: tokens [] cs)
    else if c = ' ' || c = '\t' then pushToken cur (tokens [] cs)
    else tokens (c :: cur) cs

/-- The value of one digit in a base. -/
def digitValue (base : Nat) (c : Char) : Option Nat :=
  let n := c.toNat
  let v := if 48 ≤ n ∧ n ≤ 57 then n - 48
    else if 65 ≤ n ∧ n ≤ 70 then n - 55
    else if 97 ≤ n ∧ n ≤ 102 then n - 87
    else base
  if v < base then some v else none

/-- The value of a run of digits after `acc`. -/
def digitsValue (base acc : Nat) : List Char → Option Nat
  | [] => some acc
  | c :: cs =>
    match digitValue base c with
    | some v => digitsValue base (acc * base + v) cs
    | none => none

/-- A decimal or 0x-hex number. -/
def number : List Char → Option Nat
  | [] => none
  | ['0', 'x'] => none
  | '0' :: 'x' :: cs => digitsValue 16 0 cs
  | cs => digitsValue 10 0 cs

/-- A number that fits in `width` bits. -/
def numberOf (width : Nat) (t : List Char) : Option (BitVec width) :=
  match number t with
  | some n => if n < 2 ^ width then some (BitVec.ofNat width n) else none
  | none => none

/-- A mode operand: `PLAIN`, `OBF`, or a number 0 to 255 (R105). -/
def modeOperand (t : List Char) : Option Byte :=
  if t = ['P', 'L', 'A', 'I', 'N'] then some 0x00
  else if t = ['O', 'B', 'F'] then some 0x01
  else numberOf 8 t

/-- The command word of a line's tokens. `INIT <mode>` is `INIT 500, <mode>` (R104); `.word` gives a word as it stands, as
the programs of 95_test_vectors.md write an undefined opcode. -/
def assembleTokens : List (List Char) → Option CommandWord
  | [['I', 'N', 'I', 'T'], mode] => (modeOperand mode).map fun m => commandWord Config.defaultDelay m 0x01
  | [['I', 'N', 'I', 'T'], delay, [','], mode] =>
    match numberOf 32 delay, modeOperand mode with
    | some d, some m => some (commandWord d m 0x01)
    | _, _ => none
  | [['R', 'D', 'R', 'A', 'W']] => some (commandWord 0 0 0x02)
  | [['R', 'D', 'V', 'A', 'L']] => some (commandWord 0 0 0x03)
  | [['I', 'S', 'O', 'B', 'F']] => some (commandWord 0 0 0x04)
  | [['.', 'w', 'o', 'r', 'd'], w] => numberOf 48 w
  | _ => none

/-- One line: `none` if it is no line of the syntax, `some []` if it holds no command. -/
def assembleLine (line : List Char) : Option (List CommandWord) :=
  match tokens [] line with
  | [] => some []
  | ts => (assembleTokens ts).map fun w => [w]

/-- A program: its lines' words in order, if every line is of the syntax. -/
def assemble : List (List Char) → Option (List CommandWord)
  | [] => some []
  | line :: lines =>
    match assembleLine line, assemble lines with
    | some ws, some rest => some (ws ++ rest)
    | _, _ => none

/-- A program's text, one command per line (R105). -/
def assembleText (text : String) : Option (List CommandWord) :=
  assemble (text.toList.splitOn '\n')

end Sys2Proof.Machine
end

