-- ==== Sys2Proof/Safety.lean ====
section
/-! DEFINITION. What counts as a good state and a good event trace, in the terms the statements use. Traces are newest event
first. -/

namespace Sys2Proof.Machine

/-! ### Phases -/

/-- The micro-steps of INIT after its acceptance (10_state.md R24). -/
def Phase.inInit : Phase → Bool
  | .iOpen => true
  | .iWObf => true
  | .iWPl1 => true
  | .iWPl2 => true
  | .iWait => true
  | .idle => false
  | .rReq => false
  | .rWait => false
  | .rFetch => false
  | .rDecode => false

/-- The micro-steps of a read cycle after its acceptance. -/
def Phase.inRead (p : Phase) : Bool := p != .idle && !p.inInit

/-- The micro-steps that issue a transport request (30_encoding.md R101). -/
def Phase.transports (p : Phase) : Bool := (p.request 0).isSome

/-- The micro-steps of INIT that follow a successful open. -/
def Phase.afterOpen (p : Phase) : Bool := p.inInit && p != .iOpen

/-- The phases a micro-step of a phase may lead to when it completes, as its rule names them (10_state.md R25). The fetch of
one frame byte is followed by the next in the same phase; that loop is in `Kept`. -/
def Phase.successors : Phase → List Phase
  | .idle => [.iOpen, .rReq]
  | .iOpen => [.iWObf, .iWPl1, .idle]
  | .iWObf => [.iWait]
  | .iWPl1 => [.iWPl2]
  | .iWPl2 => [.iWait]
  | .iWait => [.idle]
  | .rReq => [.rWait]
  | .rWait => [.rFetch]
  | .rFetch => [.rDecode, .idle]
  | .rDecode => [.idle]

/-- How far along its command a phase stands. -/
def Phase.order : Phase → Nat
  | .idle => 0
  | .iOpen => 1
  | .iWObf => 2
  | .iWPl1 => 2
  | .iWPl2 => 3
  | .iWait => 4
  | .rReq => 1
  | .rWait => 2
  | .rFetch => 3
  | .rDecode => 4

/-- Why a step without reset from `s` to `t` may keep its phase: the command, the answer or the end of the wait has not come
(60_exceptions.md R227, R228; log entry 3), a command was over at acceptance (10_state.md R36), or a good byte that is not
the last was fetched (10_state.md R25). -/
def Kept (s t : State) : Prop :=
  match s.seq with
  | .idle => s.cmds = [] ∨ s.cmds ≠ [] ∧ t.cmds = s.cmds.tail ∧ t.rValid = true
  | .iOpen => s.inputs.ack = none
  | .iWObf => s.inputs.ack = none
  | .iWPl1 => s.inputs.ack = none
  | .iWPl2 => s.inputs.ack = none
  | .iWait => s.inputs.wDone = false
  | .rReq => s.inputs.ack = none
  | .rWait => s.inputs.wDone = false
  | .rFetch =>
      s.inputs.ack = none ∨
      (∃ r, s.inputs.ack = some r ∧ negative r = false) ∧ s.cnt.toNat < 5 ∧ t.cnt = s.cnt + 1
  | .rDecode => False

/-! ### The event trace -/

/-- The events the block may issue: the requests of 30_encoding.md R101 and waits of at least 300 microseconds (R72). -/
def Event.permitted : Event → Bool
  | .busOpen a _ => a == Config.devAddr
  | .busWriteReg _ r v =>
      (r == Config.regObf && v == Config.valObf) || (r == Config.regPl1 && v == Config.valPl1)
        || (r == Config.regPl2 && v == Config.valPl2)
  | .busWriteByte _ v => v == Config.reqByte
  | .wait d => decide (Config.minDelay ≤ d)
  | .busReadByte _ _ => true

/-- A wait stands after the newest write of the trace (20_memory.md R72). -/
def waitSinceWrite : List Event → Bool
  | [] => false
  | .wait _ :: _ => true
  | .busWriteReg _ _ _ :: _ => false
  | .busWriteByte _ _ :: _ => false
  | .busOpen _ _ :: t => waitSinceWrite t
  | .busReadByte _ _ :: t => waitSinceWrite t

/-- Every byte read of the trace has a wait between it and the nearest earlier write (20_memory.md R72). -/
def readsSettled : List Event → Bool
  | [] => true
  | .busReadByte _ _ :: t => waitSinceWrite t && readsSettled t
  | .wait _ :: t => readsSettled t
  | .busWriteReg _ _ _ :: t => readsSettled t
  | .busWriteByte _ _ :: t => readsSettled t
  | .busOpen _ _ :: t => readsSettled t

/-- The trace is `t`, with the event `e` on top while the request that issued it is outstanding. -/
def Awaiting (e : Event) (t : List Event) (s : State) : Prop :=
  s.trace = if s.tReqValid then e :: t else t

/-- The trace is `t`, with the wait on top while it is outstanding. -/
def AwaitingTime (t : List Event) (s : State) : Prop :=
  s.trace = if s.wStart then .wait s.delay :: t else t

/-- The register writes of a completed initialisation sequence (40_session_init.md R127). -/
def initWrites (obf : Bool) (h : Word32) : List Event :=
  if obf then [.busWriteReg h Config.regObf Config.valObf]
  else [.busWriteReg h Config.regPl2 Config.valPl2, .busWriteReg h Config.regPl1 Config.valPl1]

/-- The byte reads whose answers, in order of arrival, are `rs`. -/
def fetches (h : Word32) (rs : List Word32) : List Event := (rs.map fun r => Event.busReadByte h (some r)).reverse

/-- The start of every read cycle: the request byte, then the wait (41_read_cycle.md R146). -/
def cycleStart (h d : Word32) : List Event := [.wait d, .busWriteByte h Config.reqByte]

/-- The frame bytes of `rs` stand in the frame buffer, in order of arrival (20_memory.md R64). -/
def Stored (m : List Host.Cell) (rs : List Word32) : Prop :=
  ∀ k, (h : k < rs.length) → Memory.read m k = some (rs[k].extractLsb' 0 8)

/-- An INIT of a legal `delay` and of the mode `obf` (true is Obfuscated), accepted with trace `t`, has got as far as the
phase says: the latched operands are those of the command, and the events since are exactly those that
40_session_init.md R127 gives for them; in IDLE it is over. -/
def InitProgress (t : List Event) (delay : Word32) (obf : Bool) (s : State) : Prop :=
  let opened : Event := .busOpen Config.devAddr (some s.handle)
  s.delay = delay ∧ s.mLat = obf ∧
  match s.seq with
  | .iOpen => Awaiting (.busOpen Config.devAddr none) t s
  | .iWObf => obf = true ∧ Awaiting (.busWriteReg s.handle Config.regObf Config.valObf) (opened :: t) s
  | .iWPl1 => obf = false ∧ Awaiting (.busWriteReg s.handle Config.regPl1 Config.valPl1) (opened :: t) s
  | .iWPl2 =>
      obf = false ∧
      Awaiting (.busWriteReg s.handle Config.regPl2 Config.valPl2)
        (.busWriteReg s.handle Config.regPl1 Config.valPl1 :: opened :: t) s
  | .iWait => AwaitingTime (initWrites obf s.handle ++ opened :: t) s
  | .idle =>
      (s.rStatus = 0 ∧ s.rValid = true ∧ s.sess = .ready ∧ s.obf = obf ∧ s.rObf = obf ∧ negative s.handle = false ∧
        s.trace = .wait delay :: initWrites obf s.handle ++ opened :: t) ∨
      (s.rStatus = 2 ∧ s.rValid = true ∧ s.sess = .failed ∧ s.rObf = false ∧ negative s.handle = true ∧
        s.trace = opened :: t)
  | .rReq => False
  | .rWait => False
  | .rFetch => False
  | .rDecode => False

/-- A read cycle of a session with handle `h`, delay `d` and mode `obf`, accepted with trace `t`, has got as far as the phase
says, the events since are exactly those of 41_read_cycle.md R146 for `h` and `d`, and the bytes fetched are in the frame;
in IDLE it is over, and the response holds the sample of the six answers in the mode `obf`, or none if the last answer was
a failure. -/
def ReadProgress (t : List Event) (h d : Word32) (obf : Bool) (s : State) : Prop :=
  s.sess = .ready ∧ s.handle = h ∧ s.delay = d ∧ s.obf = obf ∧
  match s.seq with
  | .rReq => Awaiting (.busWriteByte h Config.reqByte) t s
  | .rWait => AwaitingTime (.busWriteByte h Config.reqByte :: t) s
  | .rFetch =>
      ∃ rs : List Word32, rs.length = s.cnt.toNat ∧ (∀ r ∈ rs, negative r = false) ∧ Stored s.frame rs ∧
        Awaiting (.busReadByte h none) (fetches h rs ++ cycleStart h d ++ t) s
  | .rDecode =>
      ∃ rs : List Word32, rs.length = 6 ∧ (∀ r ∈ rs, negative r = false) ∧ Stored s.frame rs ∧
        s.trace = fetches h rs ++ cycleStart h d ++ t
  | .idle =>
      s.rValid = true ∧ s.rObf = obf ∧
      ((s.rStatus = 0 ∧ ∃ r0 r1 r2 r3 r4 r5 : Word32, (∀ r ∈ [r0, r1, r2, r3, r4, r5], negative r = false) ∧
          s.trace = fetches h [r0, r1, r2, r3, r4, r5] ++ cycleStart h d ++ t ∧
          s.x = sampleOf obf ⟨r0.extractLsb' 0 8, r1.extractLsb' 0 8, r2.extractLsb' 0 8, r3.extractLsb' 0 8,
            r4.extractLsb' 0 8, r5.extractLsb' 0 8⟩) ∨
       (s.rStatus = 3 ∧ s.x = Sample.zero ∧ ∃ (rs : List Word32) (r : Word32), rs.length ≤ 5 ∧
          (∀ q ∈ rs, negative q = false) ∧ negative r = true ∧
          s.trace = fetches h (rs ++ [r]) ++ cycleStart h d ++ t))
  | .iOpen => False
  | .iWObf => False
  | .iWPl1 => False
  | .iWPl2 => False
  | .iWait => False

/-! ### Samples of the inputs -/

/-- The transport answers `r` in this step. -/
def Inputs.answers (p : Inputs) (r : Word32) : Prop := p.rst = false ∧ p.ack = some r

/-- The timing collaborator ends the wait in this step. -/
def Inputs.endsWait (p : Inputs) : Prop := p.rst = false ∧ p.wDone = true

/-! ### Good states -/

/-- The invariant of the machine. It holds at reset and every step keeps it; from a state where it holds no step stops. -/
structure Invariant (s : State) : Prop where
  /-- The frame buffer is in canonical form. -/
  frame_wf : Memory.wf s.frame = true
  /-- CNT never exceeds 5 (10_state.md R33). -/
  cnt_le : s.cnt.toNat ≤ 5
  /-- In `R_FETCH` the bytes below CNT have been fetched (10_state.md R51). -/
  fetched : s.seq = .rFetch → ∀ k < s.cnt.toNat, (Memory.read s.frame k).isSome = true
  /-- In `R_DECODE` all six have (10_state.md R51). -/
  complete : s.seq = .rDecode → ∀ k < 6, (Memory.read s.frame k).isSome = true
  /-- The session is not yet Ready while INIT runs (10_state.md R28). -/
  init_uninit : s.seq.inInit = true → s.sess = .uninit
  /-- A read cycle runs only in a Ready session (41_read_cycle.md R141). -/
  read_ready : s.seq.inRead = true → s.sess = .ready
  /-- The delay in force is at least the floor (10_state.md R30). -/
  delay_floor : s.seq.inInit = true ∨ s.sess = .ready → Config.minDelay ≤ s.delay
  /-- The handle in use is not negative (40_session_init.md R122). -/
  handle_good : s.seq.afterOpen = true ∨ s.sess = .ready → negative s.handle = false
  /-- A failed session has the negative handle that failed it (60_exceptions.md R202). -/
  handle_failed : s.sess = .failed → negative s.handle = true
  /-- The write sequence is that of the requested mode (40_session_init.md R122). -/
  write_mode : (s.seq = .iWObf → s.mLat = true) ∧ (s.seq = .iWPl1 ∨ s.seq = .iWPl2 → s.mLat = false)
  /-- The request register holds the request of the phase (30_encoding.md R101). -/
  request_word : ∀ w, s.seq.request s.handle = some w → s.tReqWord = w
  /-- A request is outstanding only in the micro-step that issued it (20_memory.md R71). -/
  request_phase : s.tReqValid = true → s.seq.transports = true
  /-- A wait is outstanding only in a wait micro-step. -/
  wait_phase : s.wStart = true → s.seq = .iWait ∨ s.seq = .rWait
  /-- No response is present while a command is in progress (10_state.md R36). -/
  no_response_busy : s.seq ≠ .idle → s.rValid = false
  /-- An absent response is clear (10_state.md R36, R50). -/
  response_clear : s.rValid = false → s.rStatus = 0 ∧ s.rObf = false ∧ s.x = Sample.zero
  /-- An error response carries no sample (30_encoding.md R95). -/
  error_no_sample : s.rStatus ≠ 0 → s.x = Sample.zero
  /-- The mode bit of a response is that of the session (10_state.md R36). -/
  response_mode : s.rValid = true → s.rObf = s.modeBit
  /-- Status codes above 5 are never produced (30_encoding.md R96). -/
  status_le : s.rStatus.toNat ≤ 5
  /-- Every event of the trace is one the block may issue (30_encoding.md R101, 20_memory.md R72). -/
  events_permitted : s.trace.all Event.permitted = true
  /-- No byte is read before the adaptation delay has been waited (20_memory.md R72). -/
  reads_settled : readsSettled s.trace = true
  /-- A fetch follows a wait (70_reset_and_hazards.md R251). -/
  fetch_settled : s.seq = .rFetch ∨ s.wStart = true → waitSinceWrite s.trace = true

end Sys2Proof.Machine
end

