-- ==== Sys2Proof/Certificates/Slice0/Obligations.lean ====
section
/-! DEFINITION. The statements for the provers, from the numbered rules of spec/. -/

open Sys2Proof Sys2Proof.Machine

/-! ### Encoding -/

/-- Decode and encode agree on every instruction, with every operand at every value (30_encoding.md R91, R97, R103). -/
def Obligations.DecodeOfEncodeIsIdentity : Prop :=
  ∀ i : Instr, decode (encode i) = .ok i

/-- A transport request word that decodes is the encoding of what it decodes to: no bit of it is dropped
(30_encoding.md R97). -/
def Obligations.RequestWordHasOneMeaning : Prop :=
  ∀ (w : RequestWord) (i : Instr), decodeRequest w = .ok i → encode i = .request w

/-- 30_encoding.md R103: decoding looks at `CW[7:0]`; INIT takes its mode from `CW[15:8]` and its delay from `CW[47:16]`;
every word is exactly one of the five cases. -/
def Obligations.CommandWordsDecodeByOpcode : Prop :=
  ∀ w : CommandWord,
    (w.toNat % 2 ^ 8 = 0x01 →
      ∃ (delay : Word32) (mode : Byte), decodeCommand w = .ok (.init delay mode) ∧
        delay.toNat = w.toNat / 2 ^ 16 ∧ mode.toNat = w.toNat / 2 ^ 8 % 2 ^ 8) ∧
    (w.toNat % 2 ^ 8 = 0x02 → decodeCommand w = .ok .rdraw) ∧
    (w.toNat % 2 ^ 8 = 0x03 → decodeCommand w = .ok .rdval) ∧
    (w.toNat % 2 ^ 8 = 0x04 → decodeCommand w = .ok .isobf) ∧
    (w.toNat % 2 ^ 8 = 0x00 ∨ 0x05 ≤ w.toNat % 2 ^ 8 → ∃ e, decodeCommand w = .error e)

/-- 30_encoding.md R107: outside INIT the bits above the opcode are ignored, an illegal opcode included; INIT reads all 48
bits. -/
def Obligations.UnusedCommandBitsAreIgnored : Prop :=
  (∀ w v : CommandWord, opcodeOf w = opcodeOf v → opcodeOf w ≠ 0x01 → decodeCommand w = decodeCommand v) ∧
  (∀ w v : CommandWord, opcodeOf w = 0x01 → opcodeOf v = 0x01 → decodeCommand w = decodeCommand v → w = v)

/-- Words written out from the formats, one for each row of the table, and two that name no instruction. -/
def Obligations.WordsOfEveryRowDecode : Prop :=
  decodeTableWord 48 0x000001F40101 = some (.init 500 0x01) ∧
  decodeTableWord 48 0x1234FBCDEF02 = some .rdraw ∧
  decodeTableWord 48 0x000000000003 = some .rdval ∧
  decodeTableWord 48 0xFFFFFFFFFF04 = some .isobf ∧
  decodeTableWord 56 0x00000000520000 = some (.tOpen 0x00 0x52 0) ∧
  decodeTableWord 56 0x00000003000001 = some (.tWriteByte 0x00 0x00 3) ∧
  decodeTableWord 56 0x7FFFFFFF55F002 = some (.tWriteReg 0xF0 0x55 0x7FFFFFFF) ∧
  decodeTableWord 56 0x00000007000003 = some (.tReadByte 0x00 0x00 7) ∧
  decodeTableWord 48 0x000001F40106 = none ∧
  decodeTableWord 56 0x00000003000004 = none

/-- 30_encoding.md R101: in each transport phase the next micro-step runs the one request of that phase, and in no
other phase a request runs; the six request words. That the request register holds the word while the phase lasts is
the model's choice (log entry 6). -/
def Obligations.EachPhaseEmitsItsRequest : Prop :=
  (∀ s : State, Invariant s →
    (s.seq = .iOpen → nextMicro s = .request (.tOpen 0x00 0x52 0)) ∧
    (s.seq = .iWObf → nextMicro s = .request (.tWriteReg 0x40 0x00 s.handle)) ∧
    (s.seq = .iWPl1 → nextMicro s = .request (.tWriteReg 0xF0 0x55 s.handle)) ∧
    (s.seq = .iWPl2 → nextMicro s = .request (.tWriteReg 0xFB 0x00 s.handle)) ∧
    (s.seq = .rReq → nextMicro s = .request (.tWriteByte 0x00 0x00 s.handle)) ∧
    (s.seq = .rFetch → nextMicro s = .request (.tReadByte 0x00 0x00 s.handle)) ∧
    (∀ i, nextMicro s = .request i → s.seq.transports = true ∧ encode i = .request s.tReqWord)) ∧
  encode (.tOpen 0x00 0x52 0) = .request 0x00000000520000 ∧
  (∀ h : Word32, encode (.tWriteReg 0x40 0x00 h) = .request (h ++ (0x004002 : BitVec 24)) ∧
    encode (.tWriteReg 0xF0 0x55 h) = .request (h ++ (0x55F002 : BitVec 24)) ∧
    encode (.tWriteReg 0xFB 0x00 h) = .request (h ++ (0x00FB02 : BitVec 24)) ∧
    encode (.tWriteByte 0x00 0x00 h) = .request (h ++ (0x000001 : BitVec 24)) ∧
    encode (.tReadByte 0x00 0x00 h) = .request (h ++ (0x000003 : BitVec 24)))

/-- 30_encoding.md R104: the pseudo-instruction is INIT with the delay 500 written out, whatever the mode operand. -/
def Obligations.InitWithoutDelayIsInit500 : Prop :=
  ∀ mode : List Char,
    assembleTokens [['I', 'N', 'I', 'T'], mode] =
      assembleTokens [['I', 'N', 'I', 'T'], ['5', '0', '0'], [','], mode]

/-! ### The data path -/

/-- 42_deobfuscation.md R160: the transform with no truncation, and its two examples. -/
def Obligations.TransformIsExact : Prop :=
  (∀ b : Byte, (decodeByte b).toNat = (b.toNat ^^^ 0x17) + 0x17) ∧
  decodeByte 0x00 = 0x02E ∧ decodeByte 0xFF = 0x0FF

/-- 42_deobfuscation.md R162 to R165: where the ninth bit is set, the range and where its ends are taken, the inverse, and
the fixed points. -/
def Obligations.TransformShape : Prop :=
  (∀ b : Byte, 0xFF < (decodeByte b).toNat ↔ (0xE0 ≤ b ∧ b ≤ 0xEF) ∨ (0xF8 ≤ b ∧ b ≤ 0xFE)) ∧
  (∀ b : Byte, 0x17 ≤ (decodeByte b).toNat ∧ (decodeByte b).toNat ≤ 0x116) ∧
  (∀ b : Byte, (decodeByte b = 0x017 ↔ b = 0x17) ∧ (decodeByte b = 0x116 ↔ b = 0xE8)) ∧
  (∀ b : Byte, BitVec.ofNat 8 ((decodeByte b).toNat - 0x17) ^^^ 0x17 = b) ∧
  (∀ b : Byte, decodeByte b = b.setWidth 9 ↔ b.extractLsb' 0 3 = 0b111 ∧ b.getLsbD 4 = true)

/-- 43_frame_unpack.md R173 to R175, R181: an axis is four times its high value plus its two bits of `d5`; nothing
overlaps and nothing is dropped. -/
def Obligations.AxisIsHighAndLowParts : Prop :=
  ∀ high d5 : Nat,
    axis high d5 0xC0 6 = 4 * high + d5 / 64 % 4 ∧
    axis high d5 0x30 4 = 4 * high + d5 / 16 % 4 ∧
    axis high d5 0x0C 2 = 4 * high + d5 / 4 % 4

/-- 43_frame_unpack.md R178, 10_state.md R21: the ranges of the result registers in each mode. -/
def Obligations.ResultRangesByMode : Prop :=
  ∀ f : RawFrame,
    (let x := sampleOf false f
     x.jx.toNat ≤ 255 ∧ x.jy.toNat ≤ 255 ∧ x.ax.toNat ≤ 1023 ∧ x.ay.toNat ≤ 1023 ∧ x.az.toNat ≤ 1023) ∧
    (let x := sampleOf true f
     23 ≤ x.jx.toNat ∧ x.jx.toNat ≤ 278 ∧ 23 ≤ x.jy.toNat ∧ x.jy.toNat ≤ 278 ∧
     92 ≤ x.ax.toNat ∧ x.ax.toNat ≤ 1115 ∧ 92 ≤ x.ay.toNat ∧ x.ay.toNat ≤ 1115 ∧
     92 ≤ x.az.toNat ∧ x.az.toNat ≤ 1115)

/-- 43_frame_unpack.md R183: in both modes the sample determines the raw frame. -/
def Obligations.SampleDeterminesFrame : Prop :=
  ∀ (obf : Bool) (f g : RawFrame), sampleOf obf f = sampleOf obf g → f = g

/-- 30_encoding.md R95: where each register of the response holding register stands in the response word. -/
def Obligations.ResponseWordLayout : Prop :=
  ∀ s : State,
    s.rspWord.extractLsb' 0 8 = s.rStatus ∧
    s.rspWord.extractLsb' 8 1 = BitVec.ofBool s.rObf ∧
    s.rspWord.extractLsb' 9 1 = s.x.bc ∧
    s.rspWord.extractLsb' 10 1 = s.x.bz ∧
    s.rspWord.extractLsb' 11 5 = 0 ∧
    s.rspWord.extractLsb' 16 16 = s.x.jx.setWidth 16 ∧
    s.rspWord.extractLsb' 32 16 = s.x.jy.setWidth 16 ∧
    s.rspWord.extractLsb' 48 16 = s.x.ax.setWidth 16 ∧
    s.rspWord.extractLsb' 64 16 = s.x.ay.setWidth 16 ∧
    s.rspWord.extractLsb' 80 16 = s.x.az.setWidth 16

/-- An error response carries its status and the mode bit, and no other bit (10_state.md R36, 30_encoding.md R95). -/
def Obligations.ErrorResponseCarriesNoSample : Prop :=
  ∀ s : State, Invariant s → s.rValid = true → s.rStatus ≠ 0 →
    s.rspWord = (BitVec.ofBool (s.sess == .ready && s.obf) ++ s.rStatus).setWidth 96

/-- 44_value_mapper_and_query.md R191: the grouped names read the response word field by field, the buttons unchanged. -/
def Obligations.GroupedNamesReadTheFields : Prop :=
  ∀ s : State,
    grouped s.rspWord =
      { joystickX := s.x.jx.setWidth 16, joystickY := s.x.jy.setWidth 16,
        accelerometerX := s.x.ax.setWidth 16, accelerometerY := s.x.ay.setWidth 16,
        accelerometerZ := s.x.az.setWidth 16, buttonCPressed := s.x.bc, buttonZPressed := s.x.bz }

/-! ### Acceptance of commands -/

/-- 40_session_init.md R121: INIT in IDLE. Outside UNINIT it is refused; in UNINIT illegal operands are a
ConfigurationError; otherwise the delay and the mode are latched and the open is next (its request word with it). Every
other field is unchanged, the event trace among them. When the request register is loaded is the model's choice (log
entry 6). -/
def Obligations.InitAcceptance : Prop :=
  ∀ (s : State) (delay : Word32) (mode : Byte), s.seq = .idle →
    (s.sess ≠ .uninit →
      exec (.init delay mode) s =
        .next { s with rValid := true, rStatus := 0x04, rObf := s.sess == .ready && s.obf, x := Sample.zero }) ∧
    (s.sess = .uninit → (delay < 300 ∨ 0x01 < mode) →
      exec (.init delay mode) s =
        .next { s with rValid := true, rStatus := 0x01, rObf := false, x := Sample.zero }) ∧
    (s.sess = .uninit → 300 ≤ delay → mode ≤ 0x01 →
      exec (.init delay mode) s =
        .next { s with
          rValid := false, rStatus := 0, rObf := false, x := Sample.zero,
          delay := delay, mLat := mode == 0x01, seq := .iOpen, tReqWord := 0x00000000520000 })

/-- 41_read_cycle.md R141: RDRAW and RDVAL in IDLE. In a Ready session the request byte is next (its request word with
it); in any other they are refused. Every other field is unchanged. When the request register is loaded is the model's
choice (log entry 6). -/
def Obligations.ReadAcceptance : Prop :=
  ∀ (s : State) (i : Instr), (i = .rdraw ∨ i = .rdval) → s.seq = .idle →
    (s.sess = .ready →
      exec i s =
        .next { s with
          rValid := false, rStatus := 0, rObf := false, x := Sample.zero,
          seq := .rReq, tReqWord := requestWord s.handle 0x00 0x00 0x01 }) ∧
    (s.sess ≠ .ready →
      exec i s = .next { s with rValid := true, rStatus := 0x04, rObf := false, x := Sample.zero })

/-- 44_value_mapper_and_query.md R190: RDVAL does what RDRAW does, in every state. -/
def Obligations.RdvalDoesWhatRdrawDoes : Prop :=
  ∀ s : State, exec .rdval s = exec .rdraw s

/-- 44_value_mapper_and_query.md R192: ISOBF in IDLE writes the response register and nothing else: the mode bit in a
Ready session, a refusal in any other. -/
def Obligations.IsobfAnswersTheMode : Prop :=
  ∀ s : State, s.seq = .idle →
    (s.sess = .ready →
      exec .isobf s = .next { s with rValid := true, rStatus := 0x00, rObf := s.obf, x := Sample.zero }) ∧
    (s.sess ≠ .ready →
      exec .isobf s = .next { s with rValid := true, rStatus := 0x04, rObf := false, x := Sample.zero })

/-- 44_value_mapper_and_query.md R193: a word with an undefined opcode, in every session state, is answered
ILLEGAL_CMD; it leaves the command port and nothing else of the block changes. How the word leaves the port and the
inputs move on is the model's choice (log entries 1 and 2). -/
def Obligations.IllegalWordIsAnswered : Prop :=
  ∀ (s : State) (w : CommandWord) (rest : List CommandWord),
    s.inputs.rst = false → s.seq = .idle → s.cmds = w :: rest → (opcodeOf w = 0x00 ∨ 0x05 ≤ opcodeOf w) →
    step s =
      .next { s with
        rValid := true, rStatus := 0x05, rObf := s.sess == .ready && s.obf, x := Sample.zero,
        cmds := rest, inputs := s.later.headD Inputs.quiet, later := s.later.tail }

/-- 10_state.md R37: while the block is busy a command changes nothing, and the presented commands stay presented. The
list of presented words is log entry 1. -/
def Obligations.BusyBlockHoldsCommands : Prop :=
  ∀ s : State, s.seq ≠ .idle →
    (∀ (delay : Word32) (mode : Byte), exec (.init delay mode) s = .next s) ∧
    exec .rdraw s = .next s ∧ exec .rdval s = .next s ∧ exec .isobf s = .next s ∧
    (∀ t, step s = .next t → t.cmds = s.cmds)

/-- The model's choice of log entry 10: a transport request presented outside the phases that issue it does nothing
(30_encoding.md R101 says when each is issued). -/
def Obligations.RequestOutOfPhaseIsNotIssued : Prop :=
  ∀ (s : State) (reg val : Byte) (handle : Word32),
    (s.seq ≠ .iOpen → exec (.tOpen reg val handle) s = .next s) ∧
    (s.seq ≠ .rReq → exec (.tWriteByte reg val handle) s = .next s) ∧
    (s.seq ≠ .iWObf → s.seq ≠ .iWPl1 → s.seq ≠ .iWPl2 → exec (.tWriteReg reg val handle) s = .next s) ∧
    (s.seq ≠ .rFetch → exec (.tReadByte reg val handle) s = .next s)

/-! ### Transport micro-steps -/

/-- 40_session_init.md R122: T.OPEN in `I_OPEN`. The event joins the trace once; a negative answer fails the session
and ends the command; any other answer is the handle, and the write of the requested mode is next. Every other field is
unchanged. The request register and an answer that is there at once are the model's choices (log entries 6 and 7). -/
def Obligations.OpenMicroStep : Prop :=
  ∀ (s : State) (reg val : Byte) (handle : Word32) (t : List Event),
    s.seq = .iOpen → Awaiting (.busOpen val none) t s →
    (s.inputs.ack = none →
      exec (.tOpen reg val handle) s = .next { s with tReqValid := true, trace := .busOpen val none :: t }) ∧
    (∀ r, s.inputs.ack = some r → negative r = true →
      exec (.tOpen reg val handle) s =
        .next { s with
          handle := r, sess := .failed, seq := .idle, tReqValid := false, trace := .busOpen val (some r) :: t,
          rValid := true, rStatus := 0x02, rObf := false, x := Sample.zero }) ∧
    (∀ r, s.inputs.ack = some r → negative r = false → s.mLat = true →
      exec (.tOpen reg val handle) s =
        .next { s with
          handle := r, seq := .iWObf, tReqWord := requestWord r 0x00 0x40 0x02, tReqValid := false,
          trace := .busOpen val (some r) :: t }) ∧
    (∀ r, s.inputs.ack = some r → negative r = false → s.mLat = false →
      exec (.tOpen reg val handle) s =
        .next { s with
          handle := r, seq := .iWPl1, tReqWord := requestWord r 0x55 0xF0 0x02, tReqValid := false,
          trace := .busOpen val (some r) :: t })

/-- 40_session_init.md R123 to R125: T.WRITE_REG in the three write micro-steps. The event joins the trace once;
whatever the status (20_memory.md R77), the wait is next after the Obfuscated write and after the second Plain write,
the second Plain write after the first. Every other field is unchanged. The request register and an answer that is
there at once are the model's choices (log entries 6 and 7). -/
def Obligations.WriteRegMicroStep : Prop :=
  ∀ (s : State) (reg val : Byte) (handle : Word32) (t : List Event),
    Awaiting (.busWriteReg handle reg val) t s →
    ((s.seq = .iWObf ∨ s.seq = .iWPl1 ∨ s.seq = .iWPl2) → s.inputs.ack = none →
      exec (.tWriteReg reg val handle) s =
        .next { s with tReqValid := true, trace := .busWriteReg handle reg val :: t }) ∧
    (∀ status, (s.seq = .iWObf ∨ s.seq = .iWPl2) → s.inputs.ack = some status →
      exec (.tWriteReg reg val handle) s =
        .next { s with seq := .iWait, tReqValid := false, trace := .busWriteReg handle reg val :: t }) ∧
    (∀ status, s.seq = .iWPl1 → s.inputs.ack = some status →
      exec (.tWriteReg reg val handle) s =
        .next { s with
          seq := .iWPl2, tReqWord := requestWord s.handle 0x00 0xFB 0x02, tReqValid := false,
          trace := .busWriteReg handle reg val :: t })

/-- 41_read_cycle.md R142: T.WRITE_BYTE in `R_REQ`. The event joins the trace once; whatever the status, the wait is
next. Every other field is unchanged. An answer that is there at once is the model's choice (log entry 7). -/
def Obligations.RequestByteMicroStep : Prop :=
  ∀ (s : State) (reg val : Byte) (handle : Word32) (t : List Event),
    s.seq = .rReq → Awaiting (.busWriteByte handle val) t s →
    (s.inputs.ack = none →
      exec (.tWriteByte reg val handle) s =
        .next { s with tReqValid := true, trace := .busWriteByte handle val :: t }) ∧
    (∀ status, s.inputs.ack = some status →
      exec (.tWriteByte reg val handle) s =
        .next { s with seq := .rWait, tReqValid := false, trace := .busWriteByte handle val :: t })

/-- 41_read_cycle.md R144: T.READ_BYTE in `R_FETCH`. The event joins the trace once; a negative answer ends the command
with no byte stored; any other answer's low byte goes to `FRAME[CNT]` and no other frame byte changes; after index 5
decoding is next, before it the next fetch. Every other field is unchanged. CNT above 5, which no run reaches, stops
the model (log entry 14). The request register and an answer that is there at once are the model's choices (log entries
6 and 7). -/
def Obligations.FetchMicroStep : Prop :=
  ∀ (s : State) (reg val : Byte) (handle : Word32) (t : List Event),
    s.seq = .rFetch → Awaiting (.busReadByte handle none) t s →
    (s.inputs.ack = none →
      exec (.tReadByte reg val handle) s =
        .next { s with tReqValid := true, trace := .busReadByte handle none :: t }) ∧
    (∀ r, s.inputs.ack = some r → negative r = true →
      exec (.tReadByte reg val handle) s =
        .next { s with
          seq := .idle, tReqValid := false, trace := .busReadByte handle (some r) :: t,
          rValid := true, rStatus := 0x03, rObf := s.sess == .ready && s.obf, x := Sample.zero }) ∧
    (∀ r, s.inputs.ack = some r → negative r = false → s.cnt.toNat < 5 →
      ∃ m, exec (.tReadByte reg val handle) s =
          .next { s with
            frame := m, cnt := s.cnt + 1, seq := .rFetch, tReqWord := requestWord s.handle 0x00 0x00 0x03,
            tReqValid := false, trace := .busReadByte handle (some r) :: t } ∧
        Memory.read m s.cnt.toNat = some (r.extractLsb' 0 8) ∧
        ∀ k, k ≠ s.cnt.toNat → Memory.read m k = Memory.read s.frame k) ∧
    (∀ r, s.inputs.ack = some r → negative r = false → s.cnt.toNat = 5 →
      ∃ m, exec (.tReadByte reg val handle) s =
          .next { s with
            frame := m, seq := .rDecode, tReqValid := false, trace := .busReadByte handle (some r) :: t } ∧
        Memory.read m 5 = some (r.extractLsb' 0 8) ∧
        ∀ k, k ≠ 5 → Memory.read m k = Memory.read s.frame k) ∧
    (∀ r, s.inputs.ack = some r → negative r = false → 5 < s.cnt.toNat →
      exec (.tReadByte reg val handle) s = .fault .frameIndexAbsent)

/-! ### The other micro-steps -/

/-- 40_session_init.md R126: the step at `I_WAIT`. The wait joins the trace once; at its end the session is Ready in
the requested mode and the response shows it. Every other field of the block is unchanged. How the inputs move on, and
that a wait whose end is there at once is issued and ended in one step, are the model's choices (log entries 2 and 7).
-/
def Obligations.InitWaitMicroStep : Prop :=
  ∀ (s : State) (t : List Event), s.seq = .iWait → s.inputs.rst = false → AwaitingTime t s →
    (s.inputs.wDone = false →
      step s =
        .next { s with
          wStart := true, trace := .wait s.delay :: t, inputs := s.later.headD Inputs.quiet, later := s.later.tail }) ∧
    (s.inputs.wDone = true →
      step s =
        .next { s with
          wStart := false, trace := .wait s.delay :: t, obf := s.mLat, sess := .ready, seq := .idle,
          rValid := true, rStatus := 0x00, rObf := s.mLat, x := Sample.zero,
          inputs := s.later.headD Inputs.quiet, later := s.later.tail })

/-- 41_read_cycle.md R143: the step at `R_WAIT`. The wait joins the trace once; only its end leads to the first fetch.
The request register, how the inputs move on, and that a wait whose end is there at once is issued and ended in one
step, are the model's choices (log entries 6, 2 and 7). -/
def Obligations.ReadWaitMicroStep : Prop :=
  ∀ (s : State) (t : List Event), s.seq = .rWait → s.inputs.rst = false → AwaitingTime t s →
    (s.inputs.wDone = false →
      step s =
        .next { s with
          wStart := true, trace := .wait s.delay :: t, inputs := s.later.headD Inputs.quiet, later := s.later.tail }) ∧
    (s.inputs.wDone = true →
      step s =
        .next { s with
          wStart := false, trace := .wait s.delay :: t, cnt := 0, seq := .rFetch,
          tReqWord := requestWord s.handle 0x00 0x00 0x03,
          inputs := s.later.headD Inputs.quiet, later := s.later.tail })

/-- 41_read_cycle.md R145: the step at `R_DECODE`. The seven registers hold the seven formulas of the frame and the
mode exactly, the response is OK, and every other field of the block is unchanged, the event trace among them. How the
inputs move on is the model's choice (log entry 2). -/
def Obligations.DecodeMicroStep : Prop :=
  ∀ (s : State) (b0 b1 b2 b3 b4 b5 : Byte), s.seq = .rDecode → s.inputs.rst = false →
    Memory.read s.frame 0 = some b0 → Memory.read s.frame 1 = some b1 → Memory.read s.frame 2 = some b2 →
    Memory.read s.frame 3 = some b3 → Memory.read s.frame 4 = some b4 → Memory.read s.frame 5 = some b5 →
    let d : Byte → Nat := fun b => if s.obf then (b.toNat ^^^ 0x17) + 0x17 else b.toNat
    ∃ x : Sample,
      step s =
        .next { s with
          x := x, rValid := true, rStatus := 0x00, rObf := s.sess == .ready && s.obf, seq := .idle,
          inputs := s.later.headD Inputs.quiet, later := s.later.tail } ∧
      x.jx.toNat = d b0 ∧ x.jy.toNat = d b1 ∧
      x.ax.toNat = (d b2 <<< 2) ||| ((d b5 &&& 0xC0) >>> 6) ∧
      x.ay.toNat = (d b3 <<< 2) ||| ((d b5 &&& 0x30) >>> 4) ∧
      x.az.toNat = (d b4 <<< 2) ||| ((d b5 &&& 0x0C) >>> 2) ∧
      x.bc.toNat = (d b5 &&& 0x02) >>> 1 ∧ x.bz.toNat = d b5 &&& 0x01

/-- 41_read_cycle.md R147: two decodings of the same six bytes in the same mode give the same sample, whatever else
differs between the two states. -/
def Obligations.SampleDependsOnFrameAndModeOnly : Prop :=
  ∀ s s' t t' : State, s.seq = .rDecode → s'.seq = .rDecode → s.inputs.rst = false → s'.inputs.rst = false →
    s.obf = s'.obf → (∀ k < 6, Memory.read s.frame k = Memory.read s'.frame k) →
    step s = .next t → step s' = .next t' → t.x = t'.x ∧ t.rStatus = t'.rStatus

/-! ### Steps -/

/-- A step runs the decoded instruction: in IDLE the presented command, which leaves the port, and in a transport phase
the request of the request register; then the next sample of the inputs stands at the ports. The ports' form is the
model's choice (log entries 1, 2 and 6). -/
def Obligations.StepRunsTheDecodedInstruction : Prop :=
  (∀ (s : State) (w : CommandWord) (rest : List CommandWord) (i : Instr),
    s.inputs.rst = false → s.seq = .idle → s.cmds = w :: rest → decodeCommand w = .ok i →
    step s = mapNext State.advance (exec i { s with cmds := rest })) ∧
  (∀ (s : State) (i : Instr),
    s.inputs.rst = false → s.seq.transports = true → decodeRequest s.tReqWord = .ok i →
    step s = mapNext State.advance (exec i s))

/-- 60_exceptions.md R227, R228 and 10_state.md R38: while the awaited answer, the end of the wait or, in IDLE, a command has
not come, nothing of the block changes, the response among the rest; IDLE in every state, the other two in good states.
That this is a step which changes nothing, and no stop, is the model's choice (log entry 3). -/
def Obligations.UnansweredBlockStandsStill : Prop :=
  (∀ s : State, Invariant s → s.inputs.rst = false →
    (s.tReqValid = true ∧ s.inputs.ack = none ∨ s.wStart = true ∧ s.inputs.wDone = false) →
    step s = .next { s with inputs := s.later.headD Inputs.quiet, later := s.later.tail }) ∧
  (∀ s : State, s.inputs.rst = false → s.seq = .idle → s.cmds = [] →
    step s = .next { s with inputs := s.later.headD Inputs.quiet, later := s.later.tail })

/-- An answer that arrives in a phase that issues no request, and an end of a wait that arrives outside the wait
micro-steps, change nothing (70_reset_and_hazards.md R240: the late answer is ignored). Log entry 9. -/
def Obligations.LateAnswersAreIgnored : Prop :=
  (∀ (s : State) (a : Option Word32), s.seq.transports = false →
    step { s with inputs := { s.inputs with ack := a } } = step s) ∧
  (∀ (s : State) (b : Bool), s.seq ≠ .iWait → s.seq ≠ .rWait →
    step { s with inputs := { s.inputs with wDone := b } } = step s)

/-- 70_reset_and_hazards.md R240, R241 and 10_state.md R50: reset wins in every state; the elements with a specified
reset value take it, no event is issued and those issued stay, and the presented commands stay presented. That
presented commands stay presented is the model's choice (log entry 19). -/
def Obligations.ResetWinsInEveryState : Prop :=
  ∀ s : State, s.inputs.rst = true →
    ∃ t, step s = .next t ∧ t.sess = .uninit ∧ t.seq = .idle ∧ t.rValid = false ∧ t.rStatus = 0 ∧ t.rObf = false ∧
      t.x = Sample.zero ∧ t.tReqValid = false ∧ t.wStart = false ∧ t.cmdReady = true ∧
      t.trace = s.trace ∧ t.cmds = s.cmds

/-- The model's stops (log entries 5 and 13): decoding a frame byte that nothing has written faults, and a request register
that names no operation is refused. -/
def Obligations.StopsAreNamed : Prop :=
  (∀ (s : State) (k : Nat), s.inputs.rst = false → s.seq = .rDecode → k < 6 → Memory.read s.frame k = none →
    step s = .fault .frameByteUnwritten) ∧
  (∀ (s : State) (e : Reject), s.inputs.rst = false → s.seq.transports = true →
    decodeRequest s.tReqWord = .error e → step s = .refused .undefinedRequest)

/-! ### Invariants and rules of the whole machine -/

/-- The invariant holds at reset. -/
def Obligations.ResetSatisfiesInv : Prop := Invariant State.reset

/-- Every step keeps the invariant: the frame's canonical form, CNT, the legal combinations of phase, session, mode,
delay, handle and request, the response register's rules, and over the whole event trace that only the permitted events
are issued and no byte is read before the delay has been waited. -/
def Obligations.StepKeepsInv : Prop :=
  ∀ s t : State, Invariant s → step s = .next t → Invariant t

/-- 10_state.md R51: from a state that satisfies the invariant no step stops: no element is read before it has been
written, and no request or frame index outside the rules comes up. That a state which waits for an answer, the end of a
wait or a command has a next state at all is the model's choice (log entry 3: R228 gives it no step). -/
def Obligations.NoStepStopsUnderInv : Prop :=
  ∀ s : State, Invariant s → ∃ t, step s = .next t

/-- 40_session_init.md R129: once the session is Ready, only reset changes the mode, the delay, the handle or the session
state. -/
def Obligations.ReadySessionIsImmutable : Prop :=
  ∀ s t : State, Invariant s → s.sess = .ready → s.inputs.rst = false → step s = .next t →
    t.obf = s.obf ∧ t.delay = s.delay ∧ t.handle = s.handle ∧ t.sess = .ready

/-- 60_exceptions.md R212, 70_reset_and_hazards.md R257: a failed session stays failed until reset, issues no event, and
answers every command with a refusal and every illegal word with ILLEGAL_CMD. -/
def Obligations.FailedSessionRefusesEverything : Prop :=
  ∀ s t : State, Invariant s → s.sess = .failed → s.inputs.rst = false → step s = .next t →
    t.sess = .failed ∧ t.seq = .idle ∧ t.trace = s.trace ∧
    ∀ w rest, s.cmds = w :: rest →
      t.rValid = true ∧ t.rStatus = if 0x01 ≤ opcodeOf w ∧ opcodeOf w ≤ 0x04 then 0x04 else 0x05

/-- 10_state.md R28: who writes the session state. -/
def Obligations.SessionStateWriters : Prop :=
  ∀ s t : State, step s = .next t →
    t.sess = s.sess ∨
    (s.inputs.rst = true ∧ t.sess = .uninit) ∨
    (s.inputs.rst = false ∧ s.seq = .iWait ∧ s.inputs.wDone = true ∧ t.sess = .ready) ∨
    (s.inputs.rst = false ∧ s.seq = .iOpen ∧ (∃ r, s.inputs.ack = some r ∧ negative r = true) ∧ t.sess = .failed)

/-- 10_state.md R25: a step without reset leads to a phase that the rule of its micro-step names, or keeps its phase for one
of the reasons of `Kept`: the command, the answer or the end of the wait has not come, a command was over at acceptance, or
the fetches go on (CNT below 5). A command in progress returns to IDLE exactly when it responds. Apart from the fetches and
the return to IDLE a micro-step leads forward, so the fetches are the only loop. That waiting is a step which keeps the
phase is the model's choice (log entry 3). -/
def Obligations.PhaseSuccessors : Prop :=
  (∀ s t : State, Invariant s → s.inputs.rst = false → step s = .next t →
    (t.seq ∈ s.seq.successors ∨ t.seq = s.seq ∧ Kept s t) ∧
    (s.seq ≠ .idle → (t.seq = .idle ↔ t.rValid = true))) ∧
  (∀ p q : Phase, q ∈ p.successors → q = .idle ∨ p.order < q.order)

/-- 10_state.md R22: the result file is written by `R_DECODE` alone and otherwise only cleared. -/
def Obligations.ResultFileWriters : Prop :=
  ∀ s t : State, step s = .next t →
    t.x = s.x ∨ t.x = Sample.zero ∨
    (s.inputs.rst = false ∧ s.seq = .rDecode ∧ t.rValid = true ∧ t.rStatus = 0)

/-- 20_memory.md R70, 60_exceptions.md R211: a step adds at most one event, removes none, and changes an event already
issued only by recording its answer. The trace as a field of the state is log entry 8. -/
def Obligations.TraceGrowsByOneEvent : Prop :=
  ∀ s t : State, step s = .next t →
    t.trace = s.trace ∨ (∃ e, t.trace = e :: s.trace) ∨
    (∃ a r rest, s.trace = .busOpen a none :: rest ∧ t.trace = .busOpen a (some r) :: rest) ∨
    (∃ h r rest, s.trace = .busReadByte h none :: rest ∧ t.trace = .busReadByte h (some r) :: rest)

/-- 40_session_init.md R127: the events of an INIT are exactly those of the table, for its own operands. A word that decodes
to INIT is refused outside UNINIT, ends in a configuration error if an operand is illegal, both with no event, or starts a
sequence; after every further step without reset DELAY and M_LAT still hold the operands and the events since acceptance
are those the phase and the operands prescribe, up to the response. -/
def Obligations.InitIssuesExactlyItsEvents : Prop :=
  (∀ (s t : State) (w : CommandWord) (rest : List CommandWord) (delay : Word32) (mode : Byte),
    Invariant s → s.inputs.rst = false → s.seq = .idle → s.cmds = w :: rest →
    decodeCommand w = .ok (.init delay mode) → step s = .next t →
    (s.sess ≠ .uninit ∧ t.seq = .idle ∧ t.trace = s.trace ∧ t.sess = s.sess ∧ t.rValid = true ∧ t.rStatus = 4) ∨
    (s.sess = .uninit ∧ (delay < 300 ∨ 0x01 < mode) ∧
      t.seq = .idle ∧ t.trace = s.trace ∧ t.sess = .uninit ∧ t.rValid = true ∧ t.rStatus = 1) ∨
    (s.sess = .uninit ∧ 300 ≤ delay ∧ mode ≤ 0x01 ∧
      t.seq = .iOpen ∧ InitProgress s.trace delay (mode == 0x01) t)) ∧
  (∀ (base : List Event) (delay : Word32) (obf : Bool) (s t : State),
    Invariant s → s.inputs.rst = false → s.seq ≠ .idle → InitProgress base delay obf s → step s = .next t →
    InitProgress base delay obf t)

/-- 41_read_cycle.md R146: the events of a read cycle are exactly the request byte, the wait and the fetches, six unless
one fails, for the handle and the delay of the session it was accepted in, and the sample in the response is that of the
six answers recorded in the trace, in that session's mode. -/
def Obligations.ReadCycleIssuesExactlyItsEvents : Prop :=
  (∀ (s t : State) (w : CommandWord) (rest : List CommandWord) (i : Instr),
    Invariant s → s.inputs.rst = false → s.seq = .idle → s.cmds = w :: rest → decodeCommand w = .ok i →
    (i = .rdraw ∨ i = .rdval) → step s = .next t →
    (t.seq = .idle ∧ t.trace = s.trace ∧ t.rValid = true ∧ t.rStatus = 4 ∧ s.sess ≠ .ready) ∨
    (t.seq = .rReq ∧ s.sess = .ready ∧ ReadProgress s.trace s.handle s.delay s.obf t)) ∧
  (∀ (base : List Event) (h d : Word32) (obf : Bool) (s t : State),
    Invariant s → s.inputs.rst = false → s.seq ≠ .idle → ReadProgress base h d obf s → step s = .next t →
    ReadProgress base h d obf t)

/-- 40_session_init.md R120: with collaborators that answer at once, a legal INIT from UNINIT is over after four
micro-steps in Obfuscated mode and five in Plain mode, whatever the write statuses; the session is Ready with the
latched delay and handle, and the trace has grown by the sequence of its mode. The model's choices in it: how the port
and the inputs move on (log entries 1 and 2), what the request register holds once the command is over (log entry 6),
and how many steps it takes (log entry 7). -/
def Obligations.InitRunsToReady : Prop :=
  (∀ (s : State) (rest : List CommandWord) (delay h st : Word32) (p1 p2 p3 : Inputs) (ps : List Inputs),
    Invariant s → s.seq = .idle → s.sess = .uninit → s.inputs.rst = false →
    s.cmds = commandWord delay 0x01 0x01 :: rest → 300 ≤ delay → s.later = p1 :: p2 :: p3 :: ps →
    p1.answers h → negative h = false → p2.answers st → p3.endsWait →
    Host.Core.run Sys2Proof.core 4 s =
      .next { s with
        sess := .ready, obf := true, delay := delay, handle := h, mLat := true,
        rValid := true, rStatus := 0x00, rObf := true, x := Sample.zero, tReqWord := requestWord h 0x00 0x40 0x02,
        cmds := rest, inputs := ps.headD Inputs.quiet, later := ps.tail,
        trace := .wait delay :: .busWriteReg h 0x40 0x00 :: .busOpen 0x52 (some h) :: s.trace }) ∧
  (∀ (s : State) (rest : List CommandWord) (delay h st st' : Word32) (p1 p2 p3 p4 : Inputs) (ps : List Inputs),
    Invariant s → s.seq = .idle → s.sess = .uninit → s.inputs.rst = false →
    s.cmds = commandWord delay 0x00 0x01 :: rest → 300 ≤ delay → s.later = p1 :: p2 :: p3 :: p4 :: ps →
    p1.answers h → negative h = false → p2.answers st → p3.answers st' → p4.endsWait →
    Host.Core.run Sys2Proof.core 5 s =
      .next { s with
        sess := .ready, obf := false, delay := delay, handle := h, mLat := false,
        rValid := true, rStatus := 0x00, rObf := false, x := Sample.zero, tReqWord := requestWord h 0x00 0xFB 0x02,
        cmds := rest, inputs := ps.headD Inputs.quiet, later := ps.tail,
        trace := .wait delay :: .busWriteReg h 0xFB 0x00 :: .busWriteReg h 0xF0 0x55 ::
          .busOpen 0x52 (some h) :: s.trace })

/-- 41_read_cycle.md R140: with collaborators that answer at once and no failed fetch, a read cycle of a Ready session
is over after ten micro-steps, with the sample of the six bytes in the session's mode; the session is unchanged and the
trace has grown by the eight events. The model's choices in it: how the port and the inputs move on (log entries 1 and
2) and how many steps it takes (log entry 7). -/
def Obligations.ReadCycleRunsToSample : Prop :=
  ∀ (s : State) (w : CommandWord) (rest : List CommandWord) (st r0 r1 r2 r3 r4 r5 : Word32)
    (p1 p2 p3 p4 p5 p6 p7 p8 p9 : Inputs) (ps : List Inputs),
    Invariant s → s.seq = .idle → s.sess = .ready → s.inputs.rst = false →
    s.cmds = w :: rest → (opcodeOf w = 0x02 ∨ opcodeOf w = 0x03) →
    s.later = p1 :: p2 :: p3 :: p4 :: p5 :: p6 :: p7 :: p8 :: p9 :: ps →
    p1.answers st → p2.endsWait → p3.answers r0 → p4.answers r1 → p5.answers r2 → p6.answers r3 → p7.answers r4 →
    p8.answers r5 → p9.rst = false → (∀ r ∈ [r0, r1, r2, r3, r4, r5], negative r = false) →
    ∃ t, Host.Core.run Sys2Proof.core 10 s = .next t ∧
      t.seq = .idle ∧ t.rValid = true ∧ t.rStatus = 0x00 ∧ t.rObf = s.obf ∧
      t.x = sampleOf s.obf ⟨r0.extractLsb' 0 8, r1.extractLsb' 0 8, r2.extractLsb' 0 8, r3.extractLsb' 0 8,
        r4.extractLsb' 0 8, r5.extractLsb' 0 8⟩ ∧
      t.trace = fetches s.handle [r0, r1, r2, r3, r4, r5] ++ .wait s.delay :: .busWriteByte s.handle 0x00 :: s.trace ∧
      t.sess = .ready ∧ t.obf = s.obf ∧ t.delay = s.delay ∧ t.handle = s.handle ∧ t.cmds = rest

/-- 10_state.md R38: a response that is present stays present and its word stays as it is, until reset or the step that
accepts the next command; in that step the port was ready and a command was presented. -/
def Obligations.ResponseIsStable : Prop :=
  ∀ s t : State, Invariant s → s.inputs.rst = false → s.rspValid = true → step s = .next t →
    t.rspValid = true ∧ t.rspWord = s.rspWord ∨
    s.cmdReady = true ∧ s.cmds ≠ [] ∧ t.cmds = s.cmds.tail
end

