-- ==== Sys2Proof/Laws/Encoding.lean ====
section
/-! SUPPORT. The fields of the words the encoder writes: each field of a word is the operand it was made of. -/

namespace Sys2Proof.Laws

/-- The low field of an append, at any widths. -/
theorem extract_low {m n : Nat} (hi : BitVec m) (lo : BitVec n) : (hi ++ lo).extractLsb' 0 n = lo := by
  apply BitVec.eq_of_getLsbD_eq
  intro i h
  simp [BitVec.getLsbD_append, h]

/-- A field above the low part of an append is a field of the high part. -/
theorem extract_high {m n : Nat} (hi : BitVec m) (lo : BitVec n) (start len : Nat) :
    (hi ++ lo).extractLsb' (n + start) len = hi.extractLsb' start len := by
  apply BitVec.eq_of_getLsbD_eq
  intro i h
  simp [BitVec.getLsbD_append, h, Nat.add_assoc]

/-- A whole value is its own field. -/
theorem extract_all {n : Nat} (v : BitVec n) : v.extractLsb' 0 n = v := by
  apply BitVec.eq_of_getLsbD_eq
  intro i h
  simp [h]

/-- An append as a number. -/
theorem toNat_append {m n : Nat} (hi : BitVec m) (lo : BitVec n) : (hi ++ lo).toNat = hi.toNat * 2 ^ n + lo.toNat := by
  rw [BitVec.toNat_append, ← Nat.shiftLeft_add_eq_or_of_lt lo.isLt, Nat.shiftLeft_eq]

theorem toNat_commandWord (delay : Word32) (mode op : Byte) :
    (commandWord delay mode op).toNat = (delay.toNat * 2 ^ 8 + mode.toNat) * 2 ^ 8 + op.toNat :=
  (toNat_append (delay ++ mode) op).trans (by rw [toNat_append delay mode])

theorem toNat_requestWord (handle : Word32) (val reg op : Byte) :
    (requestWord handle val reg op).toNat =
      ((handle.toNat * 2 ^ 8 + val.toNat) * 2 ^ 8 + reg.toNat) * 2 ^ 8 + op.toNat :=
  (toNat_append (handle ++ val ++ reg) op).trans
    (by rw [toNat_append (handle ++ val) reg, toNat_append handle val])

/-- A command word is made of its three fields. -/
theorem commandWord_fields (w : CommandWord) :
    commandWord (w.extractLsb' 16 32) (w.extractLsb' 8 8) (opcodeOf w) = w := by
  apply BitVec.eq_of_toNat_eq
  have := w.isLt
  simp only [toNat_commandWord, opcodeOf, BitVec.extractLsb'_toNat, Nat.shiftRight_eq_div_pow]
  omega

/-- A request word is made of its four fields. -/
theorem requestWord_fields (w : RequestWord) :
    requestWord (w.extractLsb' 24 32) (w.extractLsb' 16 8) (w.extractLsb' 8 8) (opcodeOf w) = w := by
  apply BitVec.eq_of_toNat_eq
  have := w.isLt
  simp only [toNat_requestWord, opcodeOf, BitVec.extractLsb'_toNat, Nat.shiftRight_eq_div_pow]
  omega

theorem opcodeOf_commandWord (delay : Word32) (mode op : Byte) : opcodeOf (commandWord delay mode op) = op :=
  extract_low (delay ++ mode) op

theorem mode_commandWord (delay : Word32) (mode op : Byte) : (commandWord delay mode op).extractLsb' 8 8 = mode :=
  (extract_high (delay ++ mode) op 0 8).trans (extract_low delay mode)

theorem delay_commandWord (delay : Word32) (mode op : Byte) : (commandWord delay mode op).extractLsb' 16 32 = delay :=
  (extract_high (delay ++ mode) op 8 32).trans ((extract_high delay mode 0 32).trans (extract_all delay))

theorem opcodeOf_requestWord (handle : Word32) (val reg op : Byte) :
    opcodeOf (requestWord handle val reg op) = op :=
  extract_low (handle ++ val ++ reg) op

theorem reg_requestWord (handle : Word32) (val reg op : Byte) :
    (requestWord handle val reg op).extractLsb' 8 8 = reg :=
  (extract_high (handle ++ val ++ reg) op 0 8).trans (extract_low (handle ++ val) reg)

theorem val_requestWord (handle : Word32) (val reg op : Byte) :
    (requestWord handle val reg op).extractLsb' 16 8 = val :=
  (extract_high (handle ++ val ++ reg) op 8 8).trans
    ((extract_high (handle ++ val) reg 0 8).trans (extract_low handle val))

theorem handle_requestWord (handle : Word32) (val reg op : Byte) :
    (requestWord handle val reg op).extractLsb' 24 32 = handle :=
  (extract_high (handle ++ val ++ reg) op 16 32).trans
    ((extract_high (handle ++ val) reg 8 32).trans ((extract_high handle val 0 32).trans (extract_all handle)))

end Sys2Proof.Laws
end

