-- ==== Sys2Proof/Laws/Memory.lean ====
section
/-! SUPPORT. The frame buffer: a read after a write, and the canonical form, which every memory operation keeps. -/

namespace Sys2Proof.Machine

@[simp] theorem Memory.read_nil (k : Nat) : Memory.read [] k = none := rfl

@[simp] theorem Memory.read_cons (c : Host.Cell) (cs : List Host.Cell) (k : Nat) :
    Memory.read (c :: cs) k = if c.1 = k then some c.2 else Memory.read cs k := rfl

/-- What was written is read. -/
@[simp] theorem Memory.read_insert_same (m : List Host.Cell) (k : Nat) (v : Byte) :
    Memory.read (Memory.insert m k v) k = some v := by
  induction m with
  | nil => simp [Memory.insert]
  | cons c cs ih =>
    simp only [Memory.insert]
    split
    · next h => rw [read_cons, if_neg (Nat.ne_of_lt h), ih]
    · split <;> simp

/-- A write leaves every other byte alone. -/
@[simp] theorem Memory.read_insert_other (m : List Host.Cell) (k j : Nat) (v : Byte) (h : j ≠ k) :
    Memory.read (Memory.insert m k v) j = Memory.read m j := by
  induction m with
  | nil => simp [Memory.insert, Ne.symm h]
  | cons c cs ih =>
    simp only [Memory.insert]
    split
    · rw [read_cons, read_cons, ih]
    · split
      · next hk => simp [hk, Ne.symm h]
      · simp [Ne.symm h]

/-- A list in canonical form above a bound is in canonical form above any lower bound. -/
theorem Memory.above_mono {low low' : Nat} {m : List Host.Cell} (hle : low ≤ low')
    (h : Memory.above low' m = true) : Memory.above low m = true := by
  cases m with
  | nil => rfl
  | cons c cs =>
    simp only [above, Bool.and_eq_true, decide_eq_true_eq] at h ⊢
    exact ⟨⟨Nat.le_trans hle h.1.1, h.1.2⟩, h.2⟩

/-- Inserting a byte in range keeps the canonical form. -/
theorem Memory.above_insert {low k : Nat} {v : Byte} {m : List Host.Cell} (hlow : low ≤ k)
    (hk : k < Config.frameLen) (h : Memory.above low m = true) : Memory.above low (Memory.insert m k v) = true := by
  induction m generalizing low with
  | nil => simp [insert, above, hlow, hk]
  | cons c cs ih =>
    simp only [above, Bool.and_eq_true, decide_eq_true_eq] at h
    simp only [insert]
    split
    · next hc =>
      simp only [above, Bool.and_eq_true, decide_eq_true_eq]
      exact ⟨h.1, ih hc h.2⟩
    · split
      · next hc =>
        simp only [above, Bool.and_eq_true, decide_eq_true_eq]
        exact ⟨⟨hlow, hk⟩, hc ▸ h.2⟩
      · next hlt hne =>
        simp only [above, Bool.and_eq_true, decide_eq_true_eq]
        exact ⟨⟨hlow, hk⟩, ⟨by omega, h.1.2⟩, h.2⟩

/-- Everything a write can do: it succeeds exactly for the six indices. -/
theorem Memory.write_eq_some {m m' : List Host.Cell} {k : Nat} {v : Byte} :
    Memory.write m k v = some m' ↔ k < Config.frameLen ∧ m' = Memory.insert m k v := by
  unfold write
  split
  · next h => simp [h, eq_comm]
  · next h => simp [h]

/-- `MemWrite` keeps the canonical form. -/
theorem Memory.write_wf {m m' : List Host.Cell} {k : Nat} {v : Byte} (hw : Memory.write m k v = some m')
    (h : Memory.wf m = true) : Memory.wf m' = true := by
  obtain ⟨hk, rfl⟩ := write_eq_some.mp hw
  exact above_insert (Nat.zero_le k) hk h

/-- The memory after reset is in canonical form. -/
theorem Memory.reset_wf : Memory.wf State.reset.frame = true := rfl

/-- In canonical form nothing is listed below the bound. -/
theorem Memory.read_below {low k : Nat} {m : List Host.Cell} (h : Memory.above low m = true) (hk : k < low) :
    Memory.read m k = none := by
  induction m generalizing low with
  | nil => rfl
  | cons c cs ih =>
    simp only [above, Bool.and_eq_true, decide_eq_true_eq] at h
    rw [read_cons, if_neg (by omega), ih h.2 (by omega)]

/-- In canonical form nothing is listed outside the six bytes. -/
theorem Memory.read_outside {k : Nat} {m : List Host.Cell} (h : Memory.wf m = true) (hk : Config.frameLen ≤ k) :
    Memory.read m k = none := by
  suffices ∀ low, Memory.above low m = true → Memory.read m k = none from this 0 h
  intro low h'
  induction m generalizing low with
  | nil => rfl
  | cons c cs ih =>
    simp only [above, Bool.and_eq_true, decide_eq_true_eq] at h'
    rw [read_cons, if_neg (by omega)]
    exact ih (above_mono (Nat.zero_le _) h'.2) _ h'.2

/-- Everything `Memory.raw` can say. -/
theorem Memory.raw_eq_some {m : List Host.Cell} {f : RawFrame} :
    Memory.raw m = some f ↔
      Memory.read m 0 = some f.b0 ∧ Memory.read m 1 = some f.b1 ∧ Memory.read m 2 = some f.b2 ∧
      Memory.read m 3 = some f.b3 ∧ Memory.read m 4 = some f.b4 ∧ Memory.read m 5 = some f.b5 := by
  constructor
  · intro h
    unfold raw at h
    split at h
    · next h0 h1 h2 h3 h4 h5 =>
      injection h with h
      subst h
      exact ⟨h0, h1, h2, h3, h4, h5⟩
    · cases h
  · rintro ⟨h0, h1, h2, h3, h4, h5⟩
    unfold raw
    rw [h0, h1, h2, h3, h4, h5]

/-- A frame whose six bytes have been written can be decoded. -/
theorem Memory.raw_of_complete {m : List Host.Cell} (h : ∀ k < 6, (Memory.read m k).isSome = true) :
    ∃ f, Memory.raw m = some f := by
  have get (k : Nat) (hk : k < 6) : ∃ b, Memory.read m k = some b := Option.isSome_iff_exists.mp (h k hk)
  obtain ⟨b0, h0⟩ := get 0 (by omega)
  obtain ⟨b1, h1⟩ := get 1 (by omega)
  obtain ⟨b2, h2⟩ := get 2 (by omega)
  obtain ⟨b3, h3⟩ := get 3 (by omega)
  obtain ⟨b4, h4⟩ := get 4 (by omega)
  obtain ⟨b5, h5⟩ := get 5 (by omega)
  exact ⟨⟨b0, b1, b2, b3, b4, b5⟩, raw_eq_some.mpr ⟨h0, h1, h2, h3, h4, h5⟩⟩

end Sys2Proof.Machine
end

