-- ==== Sys2Proof/Laws/State.lean ====
section
/-! SUPPORT. One lemma per field for each update of the state, true by rfl, so that no proof unfolds a record update. -/

namespace Sys2Proof.Machine

/-! ### `clearResponse` -/

@[simp] theorem State.clearResponse_sess (s : State) : s.clearResponse.sess = s.sess := rfl
@[simp] theorem State.clearResponse_obf (s : State) : s.clearResponse.obf = s.obf := rfl
@[simp] theorem State.clearResponse_delay (s : State) : s.clearResponse.delay = s.delay := rfl
@[simp] theorem State.clearResponse_handle (s : State) : s.clearResponse.handle = s.handle := rfl
@[simp] theorem State.clearResponse_mLat (s : State) : s.clearResponse.mLat = s.mLat := rfl
@[simp] theorem State.clearResponse_seq (s : State) : s.clearResponse.seq = s.seq := rfl
@[simp] theorem State.clearResponse_cnt (s : State) : s.clearResponse.cnt = s.cnt := rfl
@[simp] theorem State.clearResponse_frame (s : State) : s.clearResponse.frame = s.frame := rfl
@[simp] theorem State.clearResponse_rValid (s : State) : s.clearResponse.rValid = false := rfl
@[simp] theorem State.clearResponse_rStatus (s : State) : s.clearResponse.rStatus = 0 := rfl
@[simp] theorem State.clearResponse_rObf (s : State) : s.clearResponse.rObf = false := rfl
@[simp] theorem State.clearResponse_x (s : State) : s.clearResponse.x = Sample.zero := rfl
@[simp] theorem State.clearResponse_tReqValid (s : State) : s.clearResponse.tReqValid = s.tReqValid := rfl
@[simp] theorem State.clearResponse_tReqWord (s : State) : s.clearResponse.tReqWord = s.tReqWord := rfl
@[simp] theorem State.clearResponse_wStart (s : State) : s.clearResponse.wStart = s.wStart := rfl
@[simp] theorem State.clearResponse_cmds (s : State) : s.clearResponse.cmds = s.cmds := rfl
@[simp] theorem State.clearResponse_inputs (s : State) : s.clearResponse.inputs = s.inputs := rfl
@[simp] theorem State.clearResponse_later (s : State) : s.clearResponse.later = s.later := rfl
@[simp] theorem State.clearResponse_trace (s : State) : s.clearResponse.trace = s.trace := rfl

/-! ### `respondWith` -/

@[simp] theorem State.respondWith_sess (s : State) (st : Byte) (y : Sample) : (s.respondWith st y).sess = s.sess := rfl
@[simp] theorem State.respondWith_obf (s : State) (st : Byte) (y : Sample) : (s.respondWith st y).obf = s.obf := rfl
@[simp] theorem State.respondWith_delay (s : State) (st : Byte) (y : Sample) : (s.respondWith st y).delay = s.delay := rfl
@[simp] theorem State.respondWith_handle (s : State) (st : Byte) (y : Sample) : (s.respondWith st y).handle = s.handle := rfl
@[simp] theorem State.respondWith_mLat (s : State) (st : Byte) (y : Sample) : (s.respondWith st y).mLat = s.mLat := rfl
@[simp] theorem State.respondWith_seq (s : State) (st : Byte) (y : Sample) : (s.respondWith st y).seq = .idle := rfl
@[simp] theorem State.respondWith_cnt (s : State) (st : Byte) (y : Sample) : (s.respondWith st y).cnt = s.cnt := rfl
@[simp] theorem State.respondWith_frame (s : State) (st : Byte) (y : Sample) : (s.respondWith st y).frame = s.frame := rfl
@[simp] theorem State.respondWith_rValid (s : State) (st : Byte) (y : Sample) : (s.respondWith st y).rValid = true := rfl
@[simp] theorem State.respondWith_rStatus (s : State) (st : Byte) (y : Sample) : (s.respondWith st y).rStatus = st := rfl
@[simp] theorem State.respondWith_rObf (s : State) (st : Byte) (y : Sample) : (s.respondWith st y).rObf = s.modeBit := rfl
@[simp] theorem State.respondWith_x (s : State) (st : Byte) (y : Sample) : (s.respondWith st y).x = y := rfl
@[simp] theorem State.respondWith_tReqValid (s : State) (st : Byte) (y : Sample) : (s.respondWith st y).tReqValid = s.tReqValid := rfl
@[simp] theorem State.respondWith_tReqWord (s : State) (st : Byte) (y : Sample) : (s.respondWith st y).tReqWord = s.tReqWord := rfl
@[simp] theorem State.respondWith_wStart (s : State) (st : Byte) (y : Sample) : (s.respondWith st y).wStart = s.wStart := rfl
@[simp] theorem State.respondWith_cmds (s : State) (st : Byte) (y : Sample) : (s.respondWith st y).cmds = s.cmds := rfl
@[simp] theorem State.respondWith_inputs (s : State) (st : Byte) (y : Sample) : (s.respondWith st y).inputs = s.inputs := rfl
@[simp] theorem State.respondWith_later (s : State) (st : Byte) (y : Sample) : (s.respondWith st y).later = s.later := rfl
@[simp] theorem State.respondWith_trace (s : State) (st : Byte) (y : Sample) : (s.respondWith st y).trace = s.trace := rfl

/-! ### `respond` -/

@[simp] theorem State.respond_sess (s : State) (st : Byte) : (s.respond st).sess = s.sess := rfl
@[simp] theorem State.respond_obf (s : State) (st : Byte) : (s.respond st).obf = s.obf := rfl
@[simp] theorem State.respond_delay (s : State) (st : Byte) : (s.respond st).delay = s.delay := rfl
@[simp] theorem State.respond_handle (s : State) (st : Byte) : (s.respond st).handle = s.handle := rfl
@[simp] theorem State.respond_mLat (s : State) (st : Byte) : (s.respond st).mLat = s.mLat := rfl
@[simp] theorem State.respond_seq (s : State) (st : Byte) : (s.respond st).seq = .idle := rfl
@[simp] theorem State.respond_cnt (s : State) (st : Byte) : (s.respond st).cnt = s.cnt := rfl
@[simp] theorem State.respond_frame (s : State) (st : Byte) : (s.respond st).frame = s.frame := rfl
@[simp] theorem State.respond_rValid (s : State) (st : Byte) : (s.respond st).rValid = true := rfl
@[simp] theorem State.respond_rStatus (s : State) (st : Byte) : (s.respond st).rStatus = st := rfl
@[simp] theorem State.respond_rObf (s : State) (st : Byte) : (s.respond st).rObf = s.modeBit := rfl
@[simp] theorem State.respond_x (s : State) (st : Byte) : (s.respond st).x = Sample.zero := rfl
@[simp] theorem State.respond_tReqValid (s : State) (st : Byte) : (s.respond st).tReqValid = s.tReqValid := rfl
@[simp] theorem State.respond_tReqWord (s : State) (st : Byte) : (s.respond st).tReqWord = s.tReqWord := rfl
@[simp] theorem State.respond_wStart (s : State) (st : Byte) : (s.respond st).wStart = s.wStart := rfl
@[simp] theorem State.respond_cmds (s : State) (st : Byte) : (s.respond st).cmds = s.cmds := rfl
@[simp] theorem State.respond_inputs (s : State) (st : Byte) : (s.respond st).inputs = s.inputs := rfl
@[simp] theorem State.respond_later (s : State) (st : Byte) : (s.respond st).later = s.later := rfl
@[simp] theorem State.respond_trace (s : State) (st : Byte) : (s.respond st).trace = s.trace := rfl

/-! ### `raiseError` -/

@[simp] theorem State.raiseError_sess (s : State) (e : ErrorKind) : (s.raiseError e).sess = e.session s.sess := rfl
@[simp] theorem State.raiseError_obf (s : State) (e : ErrorKind) : (s.raiseError e).obf = s.obf := rfl
@[simp] theorem State.raiseError_delay (s : State) (e : ErrorKind) : (s.raiseError e).delay = s.delay := rfl
@[simp] theorem State.raiseError_handle (s : State) (e : ErrorKind) : (s.raiseError e).handle = s.handle := rfl
@[simp] theorem State.raiseError_mLat (s : State) (e : ErrorKind) : (s.raiseError e).mLat = s.mLat := rfl
@[simp] theorem State.raiseError_seq (s : State) (e : ErrorKind) : (s.raiseError e).seq = .idle := rfl
@[simp] theorem State.raiseError_cnt (s : State) (e : ErrorKind) : (s.raiseError e).cnt = s.cnt := rfl
@[simp] theorem State.raiseError_frame (s : State) (e : ErrorKind) : (s.raiseError e).frame = s.frame := rfl
@[simp] theorem State.raiseError_rValid (s : State) (e : ErrorKind) : (s.raiseError e).rValid = true := rfl
@[simp] theorem State.raiseError_rStatus (s : State) (e : ErrorKind) : (s.raiseError e).rStatus = e.code := rfl
@[simp] theorem State.raiseError_rObf (s : State) (e : ErrorKind) : (s.raiseError e).rObf = (e.session s.sess == .ready && s.obf) := rfl
@[simp] theorem State.raiseError_x (s : State) (e : ErrorKind) : (s.raiseError e).x = Sample.zero := rfl
@[simp] theorem State.raiseError_tReqValid (s : State) (e : ErrorKind) : (s.raiseError e).tReqValid = s.tReqValid := rfl
@[simp] theorem State.raiseError_tReqWord (s : State) (e : ErrorKind) : (s.raiseError e).tReqWord = s.tReqWord := rfl
@[simp] theorem State.raiseError_wStart (s : State) (e : ErrorKind) : (s.raiseError e).wStart = s.wStart := rfl
@[simp] theorem State.raiseError_cmds (s : State) (e : ErrorKind) : (s.raiseError e).cmds = s.cmds := rfl
@[simp] theorem State.raiseError_inputs (s : State) (e : ErrorKind) : (s.raiseError e).inputs = s.inputs := rfl
@[simp] theorem State.raiseError_later (s : State) (e : ErrorKind) : (s.raiseError e).later = s.later := rfl
@[simp] theorem State.raiseError_trace (s : State) (e : ErrorKind) : (s.raiseError e).trace = s.trace := rfl

/-! ### `enter` -/

@[simp] theorem State.enter_sess (s : State) (p : Phase) : (s.enter p).sess = s.sess := rfl
@[simp] theorem State.enter_obf (s : State) (p : Phase) : (s.enter p).obf = s.obf := rfl
@[simp] theorem State.enter_delay (s : State) (p : Phase) : (s.enter p).delay = s.delay := rfl
@[simp] theorem State.enter_handle (s : State) (p : Phase) : (s.enter p).handle = s.handle := rfl
@[simp] theorem State.enter_mLat (s : State) (p : Phase) : (s.enter p).mLat = s.mLat := rfl
@[simp] theorem State.enter_seq (s : State) (p : Phase) : (s.enter p).seq = p := rfl
@[simp] theorem State.enter_cnt (s : State) (p : Phase) : (s.enter p).cnt = s.cnt := rfl
@[simp] theorem State.enter_frame (s : State) (p : Phase) : (s.enter p).frame = s.frame := rfl
@[simp] theorem State.enter_rValid (s : State) (p : Phase) : (s.enter p).rValid = s.rValid := rfl
@[simp] theorem State.enter_rStatus (s : State) (p : Phase) : (s.enter p).rStatus = s.rStatus := rfl
@[simp] theorem State.enter_rObf (s : State) (p : Phase) : (s.enter p).rObf = s.rObf := rfl
@[simp] theorem State.enter_x (s : State) (p : Phase) : (s.enter p).x = s.x := rfl
@[simp] theorem State.enter_tReqValid (s : State) (p : Phase) : (s.enter p).tReqValid = s.tReqValid := rfl
@[simp] theorem State.enter_tReqWord (s : State) (p : Phase) : (s.enter p).tReqWord = (p.request s.handle).getD s.tReqWord := rfl
@[simp] theorem State.enter_wStart (s : State) (p : Phase) : (s.enter p).wStart = s.wStart := rfl
@[simp] theorem State.enter_cmds (s : State) (p : Phase) : (s.enter p).cmds = s.cmds := rfl
@[simp] theorem State.enter_inputs (s : State) (p : Phase) : (s.enter p).inputs = s.inputs := rfl
@[simp] theorem State.enter_later (s : State) (p : Phase) : (s.enter p).later = s.later := rfl
@[simp] theorem State.enter_trace (s : State) (p : Phase) : (s.enter p).trace = s.trace := rfl

/-! ### `issue` -/

@[simp] theorem State.issue_sess (s : State) (e : Event) : (s.issue e).sess = s.sess := rfl
@[simp] theorem State.issue_obf (s : State) (e : Event) : (s.issue e).obf = s.obf := rfl
@[simp] theorem State.issue_delay (s : State) (e : Event) : (s.issue e).delay = s.delay := rfl
@[simp] theorem State.issue_handle (s : State) (e : Event) : (s.issue e).handle = s.handle := rfl
@[simp] theorem State.issue_mLat (s : State) (e : Event) : (s.issue e).mLat = s.mLat := rfl
@[simp] theorem State.issue_seq (s : State) (e : Event) : (s.issue e).seq = s.seq := rfl
@[simp] theorem State.issue_cnt (s : State) (e : Event) : (s.issue e).cnt = s.cnt := rfl
@[simp] theorem State.issue_frame (s : State) (e : Event) : (s.issue e).frame = s.frame := rfl
@[simp] theorem State.issue_rValid (s : State) (e : Event) : (s.issue e).rValid = s.rValid := rfl
@[simp] theorem State.issue_rStatus (s : State) (e : Event) : (s.issue e).rStatus = s.rStatus := rfl
@[simp] theorem State.issue_rObf (s : State) (e : Event) : (s.issue e).rObf = s.rObf := rfl
@[simp] theorem State.issue_x (s : State) (e : Event) : (s.issue e).x = s.x := rfl
@[simp] theorem State.issue_tReqValid (s : State) (e : Event) : (s.issue e).tReqValid = true := rfl
@[simp] theorem State.issue_tReqWord (s : State) (e : Event) : (s.issue e).tReqWord = s.tReqWord := rfl
@[simp] theorem State.issue_wStart (s : State) (e : Event) : (s.issue e).wStart = s.wStart := rfl
@[simp] theorem State.issue_cmds (s : State) (e : Event) : (s.issue e).cmds = s.cmds := rfl
@[simp] theorem State.issue_inputs (s : State) (e : Event) : (s.issue e).inputs = s.inputs := rfl
@[simp] theorem State.issue_later (s : State) (e : Event) : (s.issue e).later = s.later := rfl
@[simp] theorem State.issue_trace (s : State) (e : Event) : (s.issue e).trace = if s.tReqValid then s.trace else e :: s.trace := rfl

/-! ### `answered` -/

@[simp] theorem State.answered_sess (s : State) (e : Event) (r : Word32) : (s.answered e r).sess = s.sess := rfl
@[simp] theorem State.answered_obf (s : State) (e : Event) (r : Word32) : (s.answered e r).obf = s.obf := rfl
@[simp] theorem State.answered_delay (s : State) (e : Event) (r : Word32) : (s.answered e r).delay = s.delay := rfl
@[simp] theorem State.answered_handle (s : State) (e : Event) (r : Word32) : (s.answered e r).handle = s.handle := rfl
@[simp] theorem State.answered_mLat (s : State) (e : Event) (r : Word32) : (s.answered e r).mLat = s.mLat := rfl
@[simp] theorem State.answered_seq (s : State) (e : Event) (r : Word32) : (s.answered e r).seq = s.seq := rfl
@[simp] theorem State.answered_cnt (s : State) (e : Event) (r : Word32) : (s.answered e r).cnt = s.cnt := rfl
@[simp] theorem State.answered_frame (s : State) (e : Event) (r : Word32) : (s.answered e r).frame = s.frame := rfl
@[simp] theorem State.answered_rValid (s : State) (e : Event) (r : Word32) : (s.answered e r).rValid = s.rValid := rfl
@[simp] theorem State.answered_rStatus (s : State) (e : Event) (r : Word32) : (s.answered e r).rStatus = s.rStatus := rfl
@[simp] theorem State.answered_rObf (s : State) (e : Event) (r : Word32) : (s.answered e r).rObf = s.rObf := rfl
@[simp] theorem State.answered_x (s : State) (e : Event) (r : Word32) : (s.answered e r).x = s.x := rfl
@[simp] theorem State.answered_tReqValid (s : State) (e : Event) (r : Word32) : (s.answered e r).tReqValid = false := rfl
@[simp] theorem State.answered_tReqWord (s : State) (e : Event) (r : Word32) : (s.answered e r).tReqWord = s.tReqWord := rfl
@[simp] theorem State.answered_wStart (s : State) (e : Event) (r : Word32) : (s.answered e r).wStart = s.wStart := rfl
@[simp] theorem State.answered_cmds (s : State) (e : Event) (r : Word32) : (s.answered e r).cmds = s.cmds := rfl
@[simp] theorem State.answered_inputs (s : State) (e : Event) (r : Word32) : (s.answered e r).inputs = s.inputs := rfl
@[simp] theorem State.answered_later (s : State) (e : Event) (r : Word32) : (s.answered e r).later = s.later := rfl
@[simp] theorem State.answered_trace (s : State) (e : Event) (r : Word32) : (s.answered e r).trace = if e.recordsAnswer then recordAnswer r s.trace else s.trace := rfl

/-! ### `startWait` -/

@[simp] theorem State.startWait_sess (s : State) : s.startWait.sess = s.sess := rfl
@[simp] theorem State.startWait_obf (s : State) : s.startWait.obf = s.obf := rfl
@[simp] theorem State.startWait_delay (s : State) : s.startWait.delay = s.delay := rfl
@[simp] theorem State.startWait_handle (s : State) : s.startWait.handle = s.handle := rfl
@[simp] theorem State.startWait_mLat (s : State) : s.startWait.mLat = s.mLat := rfl
@[simp] theorem State.startWait_seq (s : State) : s.startWait.seq = s.seq := rfl
@[simp] theorem State.startWait_cnt (s : State) : s.startWait.cnt = s.cnt := rfl
@[simp] theorem State.startWait_frame (s : State) : s.startWait.frame = s.frame := rfl
@[simp] theorem State.startWait_rValid (s : State) : s.startWait.rValid = s.rValid := rfl
@[simp] theorem State.startWait_rStatus (s : State) : s.startWait.rStatus = s.rStatus := rfl
@[simp] theorem State.startWait_rObf (s : State) : s.startWait.rObf = s.rObf := rfl
@[simp] theorem State.startWait_x (s : State) : s.startWait.x = s.x := rfl
@[simp] theorem State.startWait_tReqValid (s : State) : s.startWait.tReqValid = s.tReqValid := rfl
@[simp] theorem State.startWait_tReqWord (s : State) : s.startWait.tReqWord = s.tReqWord := rfl
@[simp] theorem State.startWait_wStart (s : State) : s.startWait.wStart = true := rfl
@[simp] theorem State.startWait_cmds (s : State) : s.startWait.cmds = s.cmds := rfl
@[simp] theorem State.startWait_inputs (s : State) : s.startWait.inputs = s.inputs := rfl
@[simp] theorem State.startWait_later (s : State) : s.startWait.later = s.later := rfl
@[simp] theorem State.startWait_trace (s : State) : s.startWait.trace = if s.wStart then s.trace else .wait s.delay :: s.trace := rfl

/-! ### `endWait` -/

@[simp] theorem State.endWait_sess (s : State) : s.endWait.sess = s.sess := rfl
@[simp] theorem State.endWait_obf (s : State) : s.endWait.obf = s.obf := rfl
@[simp] theorem State.endWait_delay (s : State) : s.endWait.delay = s.delay := rfl
@[simp] theorem State.endWait_handle (s : State) : s.endWait.handle = s.handle := rfl
@[simp] theorem State.endWait_mLat (s : State) : s.endWait.mLat = s.mLat := rfl
@[simp] theorem State.endWait_seq (s : State) : s.endWait.seq = s.seq := rfl
@[simp] theorem State.endWait_cnt (s : State) : s.endWait.cnt = s.cnt := rfl
@[simp] theorem State.endWait_frame (s : State) : s.endWait.frame = s.frame := rfl
@[simp] theorem State.endWait_rValid (s : State) : s.endWait.rValid = s.rValid := rfl
@[simp] theorem State.endWait_rStatus (s : State) : s.endWait.rStatus = s.rStatus := rfl
@[simp] theorem State.endWait_rObf (s : State) : s.endWait.rObf = s.rObf := rfl
@[simp] theorem State.endWait_x (s : State) : s.endWait.x = s.x := rfl
@[simp] theorem State.endWait_tReqValid (s : State) : s.endWait.tReqValid = s.tReqValid := rfl
@[simp] theorem State.endWait_tReqWord (s : State) : s.endWait.tReqWord = s.tReqWord := rfl
@[simp] theorem State.endWait_wStart (s : State) : s.endWait.wStart = false := rfl
@[simp] theorem State.endWait_cmds (s : State) : s.endWait.cmds = s.cmds := rfl
@[simp] theorem State.endWait_inputs (s : State) : s.endWait.inputs = s.inputs := rfl
@[simp] theorem State.endWait_later (s : State) : s.endWait.later = s.later := rfl
@[simp] theorem State.endWait_trace (s : State) : s.endWait.trace = if s.wStart then s.trace else .wait s.delay :: s.trace := rfl

/-! ### `advance` -/

@[simp] theorem State.advance_sess (s : State) : s.advance.sess = s.sess := rfl
@[simp] theorem State.advance_obf (s : State) : s.advance.obf = s.obf := rfl
@[simp] theorem State.advance_delay (s : State) : s.advance.delay = s.delay := rfl
@[simp] theorem State.advance_handle (s : State) : s.advance.handle = s.handle := rfl
@[simp] theorem State.advance_mLat (s : State) : s.advance.mLat = s.mLat := rfl
@[simp] theorem State.advance_seq (s : State) : s.advance.seq = s.seq := rfl
@[simp] theorem State.advance_cnt (s : State) : s.advance.cnt = s.cnt := rfl
@[simp] theorem State.advance_frame (s : State) : s.advance.frame = s.frame := rfl
@[simp] theorem State.advance_rValid (s : State) : s.advance.rValid = s.rValid := rfl
@[simp] theorem State.advance_rStatus (s : State) : s.advance.rStatus = s.rStatus := rfl
@[simp] theorem State.advance_rObf (s : State) : s.advance.rObf = s.rObf := rfl
@[simp] theorem State.advance_x (s : State) : s.advance.x = s.x := rfl
@[simp] theorem State.advance_tReqValid (s : State) : s.advance.tReqValid = s.tReqValid := rfl
@[simp] theorem State.advance_tReqWord (s : State) : s.advance.tReqWord = s.tReqWord := rfl
@[simp] theorem State.advance_wStart (s : State) : s.advance.wStart = s.wStart := rfl
@[simp] theorem State.advance_cmds (s : State) : s.advance.cmds = s.cmds := rfl
@[simp] theorem State.advance_inputs (s : State) : s.advance.inputs = s.later.headD Inputs.quiet := rfl
@[simp] theorem State.advance_later (s : State) : s.advance.later = s.later.tail := rfl
@[simp] theorem State.advance_trace (s : State) : s.advance.trace = s.trace := rfl

/-! ### `takeCommand` -/

@[simp] theorem State.takeCommand_sess (s : State) : s.takeCommand.sess = s.sess := rfl
@[simp] theorem State.takeCommand_obf (s : State) : s.takeCommand.obf = s.obf := rfl
@[simp] theorem State.takeCommand_delay (s : State) : s.takeCommand.delay = s.delay := rfl
@[simp] theorem State.takeCommand_handle (s : State) : s.takeCommand.handle = s.handle := rfl
@[simp] theorem State.takeCommand_mLat (s : State) : s.takeCommand.mLat = s.mLat := rfl
@[simp] theorem State.takeCommand_seq (s : State) : s.takeCommand.seq = s.seq := rfl
@[simp] theorem State.takeCommand_cnt (s : State) : s.takeCommand.cnt = s.cnt := rfl
@[simp] theorem State.takeCommand_frame (s : State) : s.takeCommand.frame = s.frame := rfl
@[simp] theorem State.takeCommand_rValid (s : State) : s.takeCommand.rValid = s.rValid := rfl
@[simp] theorem State.takeCommand_rStatus (s : State) : s.takeCommand.rStatus = s.rStatus := rfl
@[simp] theorem State.takeCommand_rObf (s : State) : s.takeCommand.rObf = s.rObf := rfl
@[simp] theorem State.takeCommand_x (s : State) : s.takeCommand.x = s.x := rfl
@[simp] theorem State.takeCommand_tReqValid (s : State) : s.takeCommand.tReqValid = s.tReqValid := rfl
@[simp] theorem State.takeCommand_tReqWord (s : State) : s.takeCommand.tReqWord = s.tReqWord := rfl
@[simp] theorem State.takeCommand_wStart (s : State) : s.takeCommand.wStart = s.wStart := rfl
@[simp] theorem State.takeCommand_cmds (s : State) : s.takeCommand.cmds = s.cmds.tail := rfl
@[simp] theorem State.takeCommand_inputs (s : State) : s.takeCommand.inputs = s.inputs := rfl
@[simp] theorem State.takeCommand_later (s : State) : s.takeCommand.later = s.later := rfl
@[simp] theorem State.takeCommand_trace (s : State) : s.takeCommand.trace = s.trace := rfl

/-! ### `applyReset` -/

@[simp] theorem State.applyReset_sess (s : State) : s.applyReset.sess = State.reset.sess := rfl
@[simp] theorem State.applyReset_obf (s : State) : s.applyReset.obf = State.reset.obf := rfl
@[simp] theorem State.applyReset_delay (s : State) : s.applyReset.delay = State.reset.delay := rfl
@[simp] theorem State.applyReset_handle (s : State) : s.applyReset.handle = State.reset.handle := rfl
@[simp] theorem State.applyReset_mLat (s : State) : s.applyReset.mLat = State.reset.mLat := rfl
@[simp] theorem State.applyReset_seq (s : State) : s.applyReset.seq = State.reset.seq := rfl
@[simp] theorem State.applyReset_cnt (s : State) : s.applyReset.cnt = State.reset.cnt := rfl
@[simp] theorem State.applyReset_frame (s : State) : s.applyReset.frame = State.reset.frame := rfl
@[simp] theorem State.applyReset_rValid (s : State) : s.applyReset.rValid = State.reset.rValid := rfl
@[simp] theorem State.applyReset_rStatus (s : State) : s.applyReset.rStatus = State.reset.rStatus := rfl
@[simp] theorem State.applyReset_rObf (s : State) : s.applyReset.rObf = State.reset.rObf := rfl
@[simp] theorem State.applyReset_x (s : State) : s.applyReset.x = State.reset.x := rfl
@[simp] theorem State.applyReset_tReqValid (s : State) : s.applyReset.tReqValid = State.reset.tReqValid := rfl
@[simp] theorem State.applyReset_tReqWord (s : State) : s.applyReset.tReqWord = State.reset.tReqWord := rfl
@[simp] theorem State.applyReset_wStart (s : State) : s.applyReset.wStart = State.reset.wStart := rfl
@[simp] theorem State.applyReset_cmds (s : State) : s.applyReset.cmds = s.cmds := rfl
@[simp] theorem State.applyReset_inputs (s : State) : s.applyReset.inputs = s.inputs := rfl
@[simp] theorem State.applyReset_later (s : State) : s.applyReset.later = s.later := rfl
@[simp] theorem State.applyReset_trace (s : State) : s.applyReset.trace = s.trace := rfl

/-! ### Derived conditions read only the fields they name -/

@[simp] theorem State.modeBit_eq (s : State) : s.modeBit = (s.sess == .ready && s.obf) := rfl

end Sys2Proof.Machine
end

