-- ==== Sys2Proof/Laws/Operations.lean ====
section
/-! SUPPORT. For each shared operation, one lemma that says everything it can do. -/

namespace Sys2Proof.Machine

/-- An instruction outside its phase does nothing; in its phase it runs. -/
theorem whenTaken_next {i : Instr} {s t : State} {k : State → Host.Outcome State Fault Refusal}
    (h : whenTaken i s k = .next t) : takenIn i s.seq = false ∧ t = s ∨ takenIn i s.seq = true ∧ k s = .next t := by
  unfold whenTaken at h
  split at h
  · next hp => exact .inr ⟨hp, h⟩
  · next hp => exact .inl ⟨by simpa using hp, by injection h with h; exact h.symm⟩

@[simp] theorem whenTaken_taken {i : Instr} {s : State} (k : State → Host.Outcome State Fault Refusal)
    (h : takenIn i s.seq = true) : whenTaken i s k = k s := by simp [whenTaken, h]

@[simp] theorem whenTaken_untaken {i : Instr} {s : State} (k : State → Host.Outcome State Fault Refusal)
    (h : takenIn i s.seq = false) : whenTaken i s k = .next s := by simp [whenTaken, h]

/-- A transport micro-step either waits with its request outstanding or goes on with the answer. -/
theorem transact_cases {s : State} {e : Event} {k : Word32 → State → Host.Outcome State Fault Refusal} :
    s.inputs.ack = none ∧ transact s e k = .next (s.issue e) ∨
    ∃ r, s.inputs.ack = some r ∧ transact s e k = k r ((s.issue e).answered e r) := by
  unfold transact
  cases h : s.inputs.ack with
  | none => exact .inl ⟨rfl, rfl⟩
  | some r => exact .inr ⟨r, rfl, rfl⟩

/-- A wait micro-step either waits or goes on. -/
theorem timedWait_cases {s : State} {k : State → State} :
    s.inputs.wDone = false ∧ timedWait s k = s.startWait ∨
    s.inputs.wDone = true ∧ timedWait s k = k s.endWait := by
  unfold timedWait
  cases s.inputs.wDone <;> simp

/-- In this hardware the status of a write changes nothing. -/
@[simp] theorem ignoringStatus_eq (r : Word32) (s : State) : ignoringStatus r s = .next s := by
  simp [ignoringStatus, Config.writeStatusChecked]

/-- Acceptance of INIT has three endings. -/
theorem acceptInit_cases {delay : Word32} {mode : Byte} {s : State} :
    s.sess ≠ .uninit ∧ acceptInit delay mode s = s.clearResponse.raiseError .stateRefusal ∨
    s.sess = .uninit ∧ (delay < Config.minDelay ∨ modeRecognised mode = false) ∧
      acceptInit delay mode s = s.clearResponse.raiseError .configuration ∨
    s.sess = .uninit ∧ Config.minDelay ≤ delay ∧ modeRecognised mode = true ∧
      acceptInit delay mode s =
        ({ s.clearResponse with delay := delay, mLat := mode.getLsbD 0 } : State).enter .iOpen := by
  unfold acceptInit
  by_cases hs : s.sess = .uninit
  · by_cases hd : delay < Config.minDelay
    · exact .inr (.inl ⟨hs, .inl hd, by simp [hs, hd]⟩)
    · have hle : Config.minDelay ≤ delay := BitVec.not_lt.mp hd
      by_cases hm : modeRecognised mode = false
      · exact .inr (.inl ⟨hs, .inr hm, by simp [hs, hm]⟩)
      · have hm' : modeRecognised mode = true := by simpa using hm
        exact .inr (.inr ⟨hs, hle, hm', by simp [hs, hd, hm']⟩)
  · exact .inl ⟨hs, by simp [hs]⟩

/-- Acceptance of a read cycle has two endings. -/
theorem acceptRead_cases {s : State} :
    s.sess ≠ .ready ∧ acceptRead s = s.clearResponse.raiseError .stateRefusal ∨
    s.sess = .ready ∧ acceptRead s = s.clearResponse.enter .rReq := by
  unfold acceptRead
  by_cases hs : s.sess = .ready
  · exact .inr ⟨hs, by simp [hs]⟩
  · exact .inl ⟨hs, by simp [hs]⟩

/-- ISOBF has two endings. -/
theorem answerMode_cases {s : State} :
    s.sess ≠ .ready ∧ answerMode s = s.clearResponse.raiseError .stateRefusal ∨
    s.sess = .ready ∧ answerMode s = s.clearResponse.respond statusOk := by
  unfold answerMode
  by_cases hs : s.sess = .ready
  · exact .inr ⟨hs, by simp [hs]⟩
  · exact .inl ⟨hs, by simp [hs]⟩

/-- The answer to OPEN has two endings. -/
theorem openAnswered_cases {r : Word32} {s : State} :
    negative r = true ∧ openAnswered r s = ({ s with handle := r } : State).raiseError .deviceUnavailable ∨
    negative r = false ∧
      openAnswered r s = ({ s with handle := r } : State).enter (if s.mLat then .iWObf else .iWPl1) := by
  unfold openAnswered
  cases h : negative r
  · exact .inr ⟨rfl, by simp⟩
  · exact .inl ⟨rfl, by simp⟩

/-- Storing a fetched byte has three endings. -/
theorem storeByte_cases {v : Byte} {s : State} :
    6 ≤ s.cnt.toNat ∧ storeByte v s = .fault .frameIndexAbsent ∨
    s.cnt.toNat = 5 ∧
      storeByte v s = .next (({ s with frame := Memory.insert s.frame 5 v } : State).enter .rDecode) ∨
    s.cnt.toNat < 5 ∧
      storeByte v s = .next (({ s with frame := Memory.insert s.frame s.cnt.toNat v, cnt := s.cnt + 1 } : State).enter .rFetch) := by
  unfold storeByte Memory.write
  by_cases h6 : s.cnt.toNat < Config.frameLen
  · have h6' : s.cnt.toNat < 6 := h6
    by_cases h5 : s.cnt = 5
    · exact .inr (.inl ⟨by simp [h5], by simp [h5, Config.frameLen]⟩)
    · have h5' : s.cnt.toNat ≠ 5 := fun h => h5 (BitVec.eq_of_toNat_eq (by simpa using h))
      exact .inr (.inr ⟨by omega, by rw [if_pos h6]; exact if_neg h5⟩)
  · have h6' : 6 ≤ s.cnt.toNat := Nat.le_of_not_lt h6
    exact .inl ⟨h6', by simp [h6]⟩

/-- Decoding the frame has two endings. -/
theorem readDecode_cases {s : State} :
    Memory.raw s.frame = none ∧ readDecode s = .fault .frameByteUnwritten ∨
    ∃ f, Memory.raw s.frame = some f ∧ readDecode s = .next (s.respondWith statusOk (sampleOf s.obf f)) := by
  unfold readDecode
  cases h : Memory.raw s.frame with
  | none => exact .inl ⟨rfl, rfl⟩
  | some f => exact .inr ⟨f, rfl, rfl⟩

/-- A mapped outcome is a next state exactly when the outcome is. -/
theorem mapNext_next {f : State → State} {o : Host.Outcome State Fault Refusal} {t : State} :
    mapNext f o = .next t ↔ ∃ u, o = .next u ∧ t = f u := by
  cases o <;> simp [mapNext, eq_comm]

/-- Everything a step can do: a reset, or a micro-step that answers a next state; then the inputs move on. -/
theorem step_next {s t : State} :
    step s = .next t ↔
      s.inputs.rst = true ∧ t = s.applyReset.advance ∨
      s.inputs.rst = false ∧ ∃ u, microStep s = .next u ∧ t = u.advance := by
  unfold step
  cases s.inputs.rst
  · simp [mapNext_next]
  · simp [eq_comm]

/-! ### What each instruction runs -/

theorem exec_init (delay : Word32) (mode : Byte) (s : State) :
    exec (.init delay mode) s = whenTaken (.init delay mode) s fun s => .next (acceptInit delay mode s) := rfl

theorem exec_rdraw (s : State) : exec .rdraw s = whenTaken .rdraw s fun s => .next (acceptRead s) := rfl

theorem exec_rdval (s : State) : exec .rdval s = whenTaken .rdval s fun s => .next (acceptRead s) := rfl

theorem exec_isobf (s : State) : exec .isobf s = whenTaken .isobf s fun s => .next (answerMode s) := rfl

theorem exec_tOpen (reg val : Byte) (handle : Word32) (s : State) :
    exec (.tOpen reg val handle) s = whenTaken (.tOpen reg val handle) s fun s =>
      transact s (.busOpen val none) fun r s => .next (openAnswered r s) := rfl

theorem exec_tWriteByte (reg val : Byte) (handle : Word32) (s : State) :
    exec (.tWriteByte reg val handle) s = whenTaken (.tWriteByte reg val handle) s fun s =>
      transact s (.busWriteByte handle val) fun r s => ignoringStatus r (s.enter .rWait) := rfl

theorem exec_tWriteReg (reg val : Byte) (handle : Word32) (s : State) :
    exec (.tWriteReg reg val handle) s = whenTaken (.tWriteReg reg val handle) s fun s =>
      transact s (.busWriteReg handle reg val) fun r s => ignoringStatus r (s.enter s.seq.afterWrite) := rfl

theorem exec_tReadByte (reg val : Byte) (handle : Word32) (s : State) :
    exec (.tReadByte reg val handle) s = whenTaken (.tReadByte reg val handle) s fun s =>
      transact s (.busReadByte handle none) fun r s =>
        if negative r then .next (s.raiseError .deviceRead) else storeByte (r.extractLsb' 0 8) s := rfl

/-- Everything a micro-step can do, by phase: wait for a command, take one, take an illegal word, run the request of the
phase, wait, or decode. -/
theorem microStep_next {s t : State} (h : microStep s = .next t) :
    s.seq = .idle ∧ s.cmds = [] ∧ t = s ∨
    (∃ w rest i, s.seq = .idle ∧ s.cmds = w :: rest ∧ decodeCommand w = .ok i ∧ exec i s.takeCommand = .next t) ∨
    (∃ w rest e, s.seq = .idle ∧ s.cmds = w :: rest ∧ decodeCommand w = .error e ∧ t = illegalCommand s.takeCommand) ∨
    (∃ i, s.seq.request s.handle ≠ none ∧ decodeRequest s.tReqWord = .ok i ∧ exec i s = .next t) ∨
    s.seq = .iWait ∧ t = initWait s ∨
    s.seq = .rWait ∧ t = readWait s ∨
    s.seq = .rDecode ∧ readDecode s = .next t := by
  unfold microStep nextMicro at h
  cases hq : s.seq <;> simp only [hq] at h
  case idle =>
    cases hc : s.cmds with
    | nil =>
      simp only [hc, fetchCommand, Host.Outcome.next.injEq] at h
      exact .inl ⟨rfl, rfl, h.symm⟩
    | cons w rest =>
      cases hd : decodeCommand w with
      | ok i =>
        simp only [hc, fetchCommand, hd] at h
        exact .inr (.inl ⟨w, rest, i, rfl, rfl, hd, h⟩)
      | error e =>
        simp only [hc, fetchCommand, hd, Host.Outcome.next.injEq] at h
        exact .inr (.inr (.inl ⟨w, rest, e, rfl, rfl, hd, h.symm⟩))
  case iWait => exact .inr (.inr (.inr (.inr (.inl ⟨rfl, by simpa [eq_comm] using h⟩))))
  case rWait => exact .inr (.inr (.inr (.inr (.inr (.inl ⟨rfl, by simpa [eq_comm] using h⟩)))))
  case rDecode => exact .inr (.inr (.inr (.inr (.inr (.inr ⟨rfl, h⟩)))))
  all_goals
    cases hd : decodeRequest s.tReqWord with
    | error e => simp [fetchRequest, hd] at h
    | ok i =>
      simp only [fetchRequest, hd] at h
      exact .inr (.inr (.inr (.inl ⟨i, by simp [Phase.request], rfl, h⟩)))

end Sys2Proof.Machine
end

