-- ==== Sys2Proof/Laws/PerInstr.lean ====
section
/-! SUPPORT. Families of statements made for each instruction: its encoding carries its table row's opcode in the row's
format. -/

namespace Sys2Proof.Laws

/-- The opcode of an instruction's row in spec/opcode_table.json: the row's `match` under its mask 0xFF. -/
def rowMatch : Instr → Byte
  | .init _ _ => 0x01
  | .rdraw => 0x02
  | .rdval => 0x03
  | .isobf => 0x04
  | .tOpen _ _ _ => 0x00
  | .tWriteByte _ _ _ => 0x01
  | .tWriteReg _ _ _ => 0x02
  | .tReadByte _ _ _ => 0x03

/-- The instruction's row has format CW (the others have TQ). -/
def rowIsCommand : Instr → Bool
  | .init _ _ => true
  | .rdraw => true
  | .rdval => true
  | .isobf => true
  | .tOpen _ _ _ => false
  | .tWriteByte _ _ _ => false
  | .tWriteReg _ _ _ => false
  | .tReadByte _ _ _ => false

/-- The word of `i` has the format of its row and matches the row. -/
def RowMatch.Statement (i : Instr) : Prop :=
  match encode i with
  | .command w => rowIsCommand i = true ∧ opcodeOf w = rowMatch i
  | .request w => rowIsCommand i = false ∧ opcodeOf w = rowMatch i

namespace RowMatch

theorem init (delay : Word32) (mode : Byte) : Statement (.init delay mode) := ⟨rfl, opcodeOf_commandWord _ _ _⟩
theorem rdraw : Statement .rdraw := ⟨rfl, opcodeOf_commandWord _ _ _⟩
theorem rdval : Statement .rdval := ⟨rfl, opcodeOf_commandWord _ _ _⟩
theorem isobf : Statement .isobf := ⟨rfl, opcodeOf_commandWord _ _ _⟩
theorem tOpen (reg val : Byte) (handle : Word32) : Statement (.tOpen reg val handle) :=
  ⟨rfl, opcodeOf_requestWord _ _ _ _⟩
theorem tWriteByte (reg val : Byte) (handle : Word32) : Statement (.tWriteByte reg val handle) :=
  ⟨rfl, opcodeOf_requestWord _ _ _ _⟩
theorem tWriteReg (reg val : Byte) (handle : Word32) : Statement (.tWriteReg reg val handle) :=
  ⟨rfl, opcodeOf_requestWord _ _ _ _⟩
theorem tReadByte (reg val : Byte) (handle : Word32) : Statement (.tReadByte reg val handle) :=
  ⟨rfl, opcodeOf_requestWord _ _ _ _⟩

end RowMatch

end Sys2Proof.Laws
end

