-- ==== Sys2Proof/Tests/Slice0.lean ====
section
/-! SUPPORT. Tests. Expected values are those of spec/95_test_vectors.md (the vector is named) or are worked out from the
rule named. After them, for every statement with hypotheses, states and operands that meet them. -/

namespace Sys2Proof.Tests

open Sys2Proof Sys2Proof.Machine

/-! ### Small states -/

/-- No command in progress, in a session with DELAY 500. -/
def idle (sess : Session) (obf : Bool) (handle : Word32) : State :=
  { State.reset with sess := sess, obf := obf, delay := 500, handle := handle }

/-- A transport or other phase with its request in the request register. -/
def atPhase (s : State) (p : Phase) : State :=
  { s with seq := p, tReqWord := (p.request s.handle).getD s.tReqWord }

/-- INIT 500 in progress, opened with handle 3. -/
def initAt (p : Phase) (obf : Bool) : State := atPhase { idle .uninit false 3 with mLat := obf } p

/-- A read cycle in progress in a session with handle 3, after its wait, with some bytes fetched. -/
def readAt (p : Phase) (obf : Bool) (bytes : List Host.Cell) (cnt : BitVec 3) : State :=
  atPhase
    { idle .ready obf 3 with
      frame := bytes, cnt := cnt,
      trace := if p = .rFetch ∨ p = .rDecode then [.wait 500, .busWriteByte 3 0x00] else [] } p

/-- The transport answers in this step. -/
def answered (s : State) (r : Word32) : State := { s with inputs := ⟨false, some r, false⟩ }

/-- The wait ends in this step. -/
def timeUp (s : State) : State := { s with inputs := ⟨false, none, true⟩ }

/-- Reset is asserted in this step. -/
def rstHigh (s : State) : State := { s with inputs := ⟨true, none, false⟩ }

/-- The commands the host presents. -/
def given (s : State) (ws : List CommandWord) : State := { s with cmds := ws }

/-- Two frame bytes, and all six of F-10. -/
def fetched2 : List Host.Cell := [(0, 0x10), (1, 0x20)]
@[inherit_doc fetched2] def fetched6 : List Host.Cell := [(0, 0x7E), (1, 0x81), (2, 0x01), (3, 0x02), (4, 0x03), (5, 0xE4)]

/-- INIT 500 in progress with its open outstanding. -/
def outstanding (obf : Bool) : State := { initAt .iOpen obf with tReqValid := true, trace := [.busOpen 0x52 none] }

/-- A read cycle in progress with its wait outstanding. -/
def waiting : State := { readAt .rWait false [] 5 with wStart := true, trace := [.wait 500, .busWriteByte 3 0x00] }

/-- A Ready Obfuscated session that has just refused an INIT (I-10). -/
def refused : State := { idle .ready true 3 with rValid := true, rStatus := 0x04, rObf := true }

/-- Reset, with commands presented and the transport's answers in the steps that ask for them. -/
def readyToRun (ws : List CommandWord) (answers : List Word32) : State :=
  { State.reset with cmds := ws, later := (answers.map fun r => ⟨false, some r, true⟩) ++ [⟨false, none, true⟩] }

/-- The inputs of a whole read cycle: the request byte's status -1, the end of the wait, and six bytes. -/
def readInputs : List Inputs :=
  [⟨false, some 0xFFFFFFFF, false⟩, ⟨false, none, true⟩, ⟨false, some 0x10, false⟩, ⟨false, some 0x20, false⟩,
    ⟨false, some 0x30, false⟩, ⟨false, some 0x40, false⟩, ⟨false, some 0x50, false⟩, ⟨false, some 0xC3, false⟩,
    ⟨false, none, false⟩]

/-- What one step gives. -/
def after {α : Type} (s : State) (f : State → α) : Option α :=
  match step s with
  | .next t => some (f t)
  | .fault _ => none
  | .refused _ => none

/-- The same after several steps. -/
def afterRun {α : Type} (n : Nat) (s : State) (f : State → α) : Option α :=
  match Host.Core.run Sys2Proof.core n s with
  | .next t => some (f t)
  | .fault _ => none
  | .refused _ => none

/-- The whole response word of a sample (30_encoding.md R95) with status OK. -/
def rw (obf : Bool) (f : RawFrame) : ResponseWord :=
  { idle .ready obf 3 with rObf := obf, x := sampleOf obf f }.rspWord

/-! ### WellFormed: each check refuses an ill-formed term -/

theorem test_wf_open_reg : (Instr.tOpen 0x01 0x52 0).wellFormed = false := by decide
theorem test_wf_open_handle : (Instr.tOpen 0x00 0x52 1).wellFormed = false := by decide
theorem test_wf_write_byte_reg : (Instr.tWriteByte 0x80 0x00 3).wellFormed = false := by decide
theorem test_wf_read_byte_reg : (Instr.tReadByte 0x01 0x00 3).wellFormed = false := by decide
theorem test_wf_read_byte_val : (Instr.tReadByte 0x00 0x01 3).wellFormed = false := by decide
theorem test_wf_commands : (Instr.init 0 0xFF).wellFormed = true ∧ Instr.rdraw.wellFormed = true ∧
    Instr.rdval.wellFormed = true ∧ Instr.isobf.wellFormed = true := by decide
theorem test_wf_write_reg : (Instr.tWriteReg 0xF0 0x55 3).wellFormed = true := by decide
theorem test_emitted : (Instr.tWriteReg 0xF0 0x55 3).emitted 3 = true ∧ (Instr.tWriteReg 0xF0 0x00 3).emitted 3 = false ∧
    (Instr.tReadByte 0x00 0x00 4).emitted 3 = false := by decide

/-! ### Decoding: a word of every row, from the vectors, and words that are none -/

/-- S-3. -/
theorem test_decode_init : decodeTableWord 48 0x0000012C0101 = some (.init 300 0x01) := by decide
/-- R-11: the unused bits are ignored. -/
theorem test_decode_rdraw : decodeTableWord 48 0x1234FBCDEF02 = some .rdraw := by decide
/-- R-7. -/
theorem test_decode_rdval : decodeTableWord 48 0x000000000003 = some .rdval := by decide
/-- P1, command 2. -/
theorem test_decode_isobf : decodeTableWord 48 0x000000000004 = some .isobf := by decide
/-- S-2. -/
theorem test_decode_open : decodeTableWord 56 0x00000000520000 = some (.tOpen 0x00 0x52 0) := by decide
/-- S-6. -/
theorem test_decode_write_byte : decodeTableWord 56 0x00000003000001 = some (.tWriteByte 0x00 0x00 3) := by decide
/-- S-2, and P5: the largest handle. -/
theorem test_decode_write_reg : decodeTableWord 56 0x0000000300FB02 = some (.tWriteReg 0xFB 0x00 3) ∧
    decodeTableWord 56 0x7FFFFFFF55F002 = some (.tWriteReg 0xF0 0x55 0x7FFFFFFF) := by decide
/-- S-6. -/
theorem test_decode_read_byte : decodeTableWord 56 0x00000003000003 = some (.tReadByte 0x00 0x00 3) := by decide
/-- X-1, X-2, X-3, X-4. -/
theorem test_decode_illegal : decodeCommand 0x000000000000 = .error (.illegalOpcode 0x00) ∧
    decodeCommand 0x000000000005 = .error (.illegalOpcode 0x05) ∧
    decodeCommand 0x0000000000FF = .error (.illegalOpcode 0xFF) ∧
    decodeCommand 0x000001F40106 = .error (.illegalOpcode 0x06) := ⟨rfl, rfl, rfl, rfl⟩
/-- 30_encoding.md R97: `t_op` has two bits and the six above it are zero. -/
theorem test_decode_no_request : decodeRequest 0x00000003000004 = .error (.undefinedRequest 0x04) ∧
    decodeRequest 0x00000003000083 = .error (.undefinedRequest 0x83) := ⟨rfl, rfl⟩
/-- Words of the vectors, encoded (I-5, S-2). -/
theorem test_encode : encode (.init 4294967295 0x00) = .command 0xFFFFFFFF0001 ∧
    encode (.tWriteReg 0xF0 0x55 3) = .request 0x0000000355F002 ∧
    encode (.tOpen 0x00 0x52 0) = .request 0x00000000520000 := by decide

/-! ### The data path -/

/-- Section 2.1 of the vectors, S-4 among them. -/
theorem test_transform_corners :
    ([0x00, 0x01, 0x16, 0x17, 0x18, 0x1F, 0x7F, 0x80, 0xDF, 0xE0, 0xE8, 0xE9, 0xEF, 0xF0, 0xF7, 0xF8, 0xFE, 0xFF].map
      decodeByte) =
    [0x02E, 0x02D, 0x018, 0x017, 0x026, 0x01F, 0x07F, 0x0AE, 0x0DF, 0x10E, 0x116, 0x115, 0x10F, 0x0FE, 0x0F7, 0x106,
      0x100, 0x0FF] := by decide

/-- S-5, with buttonC = 1 (90_conflicts.md C3), and F-2p. -/
theorem test_document_frame : rw false ⟨0x10, 0x20, 0x30, 0x40, 0x50, 0xC3⟩ = 0x0140010000C3002000100600 ∧
    rw false ⟨0x10, 0x20, 0x30, 0x40, 0x50, 0xC1⟩ = 0x0140010000C3002000100400 := by decide
/-- F-1o. -/
theorem test_frame_1o : rw true ⟨0x10, 0x20, 0x30, 0x40, 0x50, 0xC3⟩ = 0x017A01BA00FB004E001E0700 := by decide
/-- F-5o: the maximum of the transform in every position. -/
theorem test_frame_5o : rw true ⟨0xE8, 0xE8, 0xE8, 0xE8, 0xE8, 0xE8⟩ = 0x045904590458011601160300 := by decide
/-- F-7p and F-7o: five different fields. -/
theorem test_frame_7 : rw false ⟨0x80, 0x7F, 0x00, 0xFF, 0x17, 0xA6⟩ = 0x005D03FE0002007F00800200 ∧
    rw true ⟨0x80, 0x7F, 0x00, 0xFF, 0x17, 0xA6⟩ = 0x005E03FC00BB007F00AE0100 := by decide
/-- F-10o: bit 8 of `d5` is dropped. -/
theorem test_frame_10o : rw true ⟨0x7E, 0x81, 0x01, 0x02, 0x03, 0xE4⟩ = 0x00AE00B000B400AD00800300 := by decide
/-- The exact extremes of section 2.5. -/
theorem test_frame_extremes : rw true ⟨0xE8, 0xE8, 0xE8, 0xE8, 0xE8, 0xFF⟩ = 0x045B045B045B011601160700 ∧
    rw true ⟨0x17, 0x17, 0x17, 0x17, 0x17, 0xFE⟩ = 0x005C005C005C001700170100 := by decide
/-- P1, command 4, read through the grouping. -/
theorem test_grouped : grouped 0x0140010000C3002000100400 = ⟨16, 32, 195, 256, 320, 0, 1⟩ := by decide
/-- 10_state.md R21: the registers by number. -/
theorem test_register_numbers :
    (List.finRange 7).map (sampleOf false ⟨0x10, 0x20, 0x30, 0x40, 0x50, 0xC3⟩).reg = [16, 32, 195, 256, 320, 1, 1] := by
  decide

/-! ### One step of each instruction -/

/-- S-3: INIT 300, OBF, the lowest legal delay, placed as the host places it. -/
theorem test_init_accepted :
    after (State.reset.withFetchWord 48 0x0000012C0101) (fun t => (t.seq, t.delay, t.mLat, t.tReqWord)) =
      some (.iOpen, 300, true, 0x00000000520000) := by decide
/-- S-1: INIT 299, PLAIN issues nothing. -/
theorem test_init_delay_too_short :
    after (State.reset.withFetchWord 48 0x0000012B0001) (fun t => (t.rspWord, t.sess, t.trace)) =
      some (0x000000000000000000000001, .uninit, []) := by decide
/-- S-6: the request byte is next. -/
theorem test_rdraw_accepted :
    after (given (idle .ready false 3) [0x000000000002]) (fun t => (t.seq, t.tReqWord, t.rValid)) =
      some (.rReq, 0x00000003000001, false) := by decide
/-- R-9. -/
theorem test_rdraw_refused : after (State.reset.withFetchWord 48 0x000000000002) State.rspWord = some 0x000000000000000000000004 := by
  decide
/-- R-7. -/
theorem test_rdval_accepted :
    after (given (idle .ready true 3) [0x000000000003]) (fun t => (t.seq, t.tReqWord)) =
      some (.rReq, 0x00000003000001) := by decide
/-- R-10. -/
theorem test_rdval_refused :
    after (given (idle .failed false 0xFFFFFFFF) [0x000000000003]) State.rspWord = some 0x000000000000000000000004 := by
  decide
/-- S-8. -/
theorem test_isobf : after (given (idle .ready true 3) [0x000000000004]) State.rspWord = some 0x000000000000000000000100 := by
  decide
/-- P3, command 7. -/
theorem test_isobf_refused :
    after (given (idle .failed true 0xFFFFFFFF) [0x000000000004]) State.rspWord = some 0x000000000000000000000004 := by
  decide
/-- I-2: opened with 3, the Obfuscated write is next. -/
theorem test_open_answered :
    after (answered (initAt .iOpen true) 3) (fun t => (t.handle, t.seq, t.tReqWord, t.trace)) =
      some (3, .iWObf, 0x00000003004002, [.busOpen 0x52 (some 3)]) := by decide
/-- I-7b. -/
theorem test_open_failed :
    after (answered (initAt .iOpen true) 0x80000000) (fun t => (t.rspWord, t.sess, t.trace)) =
      some (0x000000000000000000000002, .failed, [.busOpen 0x52 (some 0x80000000)]) := by decide
/-- R-6: a status of -1 is ignored. -/
theorem test_write_byte :
    after (answered (readAt .rReq false [] 0) 0xFFFFFFFF) (fun t => (t.seq, t.trace)) =
      some (.rWait, [.busWriteByte 3 0x00]) := by decide
/-- With no answer the request stays outstanding, and a second step issues no second event (20_memory.md R70). -/
theorem test_write_byte_waits :
    afterRun 2 (readAt .rReq false [] 0) (fun t => (t.seq, t.tReqValid, t.trace)) =
      some (.rReq, true, [.busWriteByte 3 0x00]) := by decide
/-- S-2: after the first Plain write, the second. -/
theorem test_write_reg_first :
    after (answered (initAt .iWPl1 false) 0) (fun t => (t.seq, t.tReqWord, t.trace)) =
      some (.iWPl2, 0x0000000300FB02, [.busWriteReg 3 0xF0 0x55]) := by decide
/-- I-9: a status of -1 is ignored. -/
theorem test_write_reg_second :
    after (answered (initAt .iWPl2 false) 0xFFFFFFFF) (fun t => (t.seq, t.trace)) =
      some (.iWait, [.busWriteReg 3 0xFB 0x00]) := by decide
/-- S-7a, third fetch. -/
theorem test_read_byte :
    after (answered (readAt .rFetch false [(0, 0x10), (1, 0x20)] 2) 0x30) (fun t => (t.seq, t.cnt, t.frame)) =
      some (.rFetch, 3, [(0, 0x10), (1, 0x20), (2, 0x30)]) := by decide
/-- S-7a, fourth fetch, in an Obfuscated session. -/
theorem test_read_byte_failed :
    after (answered (readAt .rFetch true [(0, 0x10), (1, 0x20), (2, 0x30)] 3) 0xFFFFFFFF)
        (fun t => (t.rspWord, t.sess, t.frame)) =
      some (0x000000000000000000000103, .ready, [(0, 0x10), (1, 0x20), (2, 0x30)]) := by decide

/-! ### The other micro-steps -/

/-- I-2. -/
theorem test_init_wait_ends :
    after (timeUp (initAt .iWait true)) (fun t => (t.rspWord, t.sess, t.obf, t.trace)) =
      some (0x000000000000000000000100, .ready, true, [.wait 500]) := by decide
/-- S-6. -/
theorem test_read_wait_ends :
    after (timeUp (readAt .rWait false [] 5)) (fun t => (t.seq, t.cnt, t.tReqWord)) =
      some (.rFetch, 0, 0x00000003000003) := by decide
/-- F-5o, decoded from the frame buffer. -/
theorem test_read_decode :
    after (readAt .rDecode true [(0, 0xE8), (1, 0xE8), (2, 0xE8), (3, 0xE8), (4, 0xE8), (5, 0xE8)] 5)
        (fun t => (t.rspWord, t.rspValid)) =
      some (0x045904590458011601160300, true) := by decide
/-- X-3: an illegal word in a Ready Obfuscated session. -/
theorem test_illegal_word :
    after (given (idle .ready true 3) [0x0000000000FF]) State.rspWord = some 0x000000000000000000000105 := by decide
/-- X-4: in a failed session the illegal opcode is still what is reported. -/
theorem test_illegal_word_failed :
    after (given (idle .failed true 0xFFFFFFFF) [0x000001F40106]) State.rspWord = some 0x000000000000000000000005 := by
  decide
/-- Z-3: reset in `R_FETCH`. -/
theorem test_reset_in_fetch :
    after (rstHigh (readAt .rFetch false [(0, 0x10), (1, 0x20)] 2)) (fun t => (t.sess, t.seq, t.rValid, t.trace.length)) =
      some (.uninit, .idle, false, 2) := by decide
/-- The request the host places runs as the first instruction after reset. -/
theorem test_place_request :
    after (State.reset.withFetchWord 56 0x00000003000001) (fun t => (t.tReqValid, t.trace)) =
      some (true, [.busWriteByte 3 0x00]) := by decide

/-! ### The assembler (30_encoding.md R104, R105) -/

/-- P2, command 1, with its blanks. -/
theorem test_assemble_init :
    assembleLine ['I', 'N', 'I', 'T', ' ', ' ', '3', '0', '0', ',', ' ', 'O', 'B', 'F'] = some [0x0000012C0101] := by decide
/-- P5, command 3. -/
theorem test_assemble_hex :
    assembleTokens [['I', 'N', 'I', 'T'], ['0', 'x', 'F', 'F', 'F', 'F', 'F', 'F', 'F', 'F'], [','],
      ['P', 'L', 'A', 'I', 'N']] = some 0xFFFFFFFF0001 := by decide
/-- R104, with a comment (P1, command 1). -/
theorem test_assemble_default :
    assembleLine ['I', 'N', 'I', 'T', ' ', 'P', 'L', 'A', 'I', 'N', ' ', ';', ' ', 'p'] = some [0x000001F40001] := by decide
/-- A delay of 33 bits is no command. -/
theorem test_assemble_too_wide :
    assembleTokens [['I', 'N', 'I', 'T'], ['4', '2', '9', '4', '9', '6', '7', '2', '9', '6'], [','], ['O', 'B', 'F']] = none := by
  decide

/-! ### States that meet the hypotheses of the statements

Each theorem `meets_<Name>` gives states and operands that meet all hypotheses of `Obligations.<Name>`, for each of its
clauses, at the ends of the ranges they speak of. -/

theorem inv_reset : Invariant State.reset := by
  constructor
  case request_word => intro w h; cases h
  all_goals decide

theorem inv_ready (obf : Bool) : Invariant (idle .ready obf 3) := by
  cases obf <;> constructor
  case false.request_word => intro w h; cases h
  case true.request_word => intro w h; cases h
  all_goals decide

theorem inv_failed : Invariant (idle .failed false 0xFFFFFFFF) := by
  constructor
  case request_word => intro w h; cases h
  all_goals decide

/-- The six transport phases, INIT and the read cycle in progress, each a good state. -/
theorem meets_EachPhaseEmitsItsRequest :
    (Invariant (initAt .iOpen true) ∧ (initAt .iOpen true).seq = .iOpen) ∧
    (Invariant (initAt .iWObf true) ∧ (initAt .iWObf true).seq = .iWObf) ∧
    (Invariant (initAt .iWPl1 false) ∧ (initAt .iWPl1 false).seq = .iWPl1) ∧
    (Invariant (initAt .iWPl2 false) ∧ (initAt .iWPl2 false).seq = .iWPl2) ∧
    (Invariant (readAt .rReq false [] 0) ∧ (readAt .rReq false [] 0).seq = .rReq) ∧
    (Invariant (readAt .rFetch true fetched2 2) ∧ (readAt .rFetch true fetched2 2).seq = .rFetch) ∧
    nextMicro (initAt .iOpen true) = .request (.tOpen 0x00 0x52 0) := by
  refine ⟨⟨?_, rfl⟩, ⟨?_, rfl⟩, ⟨?_, rfl⟩, ⟨?_, rfl⟩, ⟨?_, rfl⟩, ⟨?_, rfl⟩, by decide⟩ <;> constructor <;>
    first | (intro w h; cases h; rfl) | decide

/-- The two waits and the decoding, each a good state. -/
theorem inv_waits : Invariant (initAt .iWait true) ∧ Invariant (readAt .rWait false [] 5) ∧
    Invariant (readAt .rDecode true fetched6 5) := by
  refine ⟨?_, ?_, ?_⟩ <;> constructor <;> first | (intro w h; cases h; done) | decide

/-- A wait that has been asked for and has not ended, and a request likewise, each a good state. -/
theorem inv_outstanding : Invariant waiting ∧ Invariant (outstanding false) := by
  refine ⟨?_, ?_⟩ <;> constructor <;> first | (intro w h; cases h; done) | (intro w h; cases h; rfl) | decide

theorem meets_RequestWordHasOneMeaning :
    decodeRequest 0x00000000520000 = .ok (.tOpen 0x00 0x52 0) ∧
    decodeRequest 0xFFFFFFFFFFFF03 = .ok (.tReadByte 0xFF 0xFF 0xFFFFFFFF) := ⟨rfl, rfl⟩

/-- Opcodes 0x00 to 0x05 and 0xFF, with other bits set. -/
theorem meets_CommandWordsDecodeByOpcode :
    (0xFFFFFFFFFF01 : CommandWord).toNat % 2 ^ 8 = 0x01 ∧ (0x1234FBCDEF02 : CommandWord).toNat % 2 ^ 8 = 0x02 ∧
    (0x03 : CommandWord).toNat % 2 ^ 8 = 0x03 ∧ (0xFFFFFFFFFF04 : CommandWord).toNat % 2 ^ 8 = 0x04 ∧
    (0x000001F40100 : CommandWord).toNat % 2 ^ 8 = 0x00 ∧ 0x05 ≤ (0x05 : CommandWord).toNat % 2 ^ 8 ∧
    0x05 ≤ (0xFF : CommandWord).toNat % 2 ^ 8 := by decide

theorem meets_UnusedCommandBitsAreIgnored :
    (opcodeOf (0xFFFFFFFFFF02 : CommandWord) = opcodeOf (0x02 : CommandWord) ∧ opcodeOf (0xFFFFFFFFFF02 : CommandWord) ≠ 0x01) ∧
    (opcodeOf (0x000001F40100 : CommandWord) = opcodeOf (0x00 : CommandWord) ∧ opcodeOf (0x000001F40100 : CommandWord) ≠ 0x01) ∧
    (opcodeOf (0x000001F40101 : CommandWord) = 0x01 ∧ opcodeOf (commandWord 500 0x01 0x01) = 0x01 ∧
      decodeCommand 0x000001F40101 = decodeCommand (commandWord 500 0x01 0x01)) :=
  ⟨by decide, by decide, by decide, by decide, rfl⟩

theorem meets_SampleDeterminesFrame :
    sampleOf true ⟨0xFF, 0xFF, 0xFF, 0xFF, 0xFF, 0xFF⟩ = sampleOf true ⟨0xFF, 0xFF, 0xFF, 0xFF, 0xFF, 0xFF⟩ := rfl

theorem meets_ErrorResponseCarriesNoSample :
    Invariant refused ∧ refused.rValid = true ∧ refused.rStatus ≠ 0 := by
  refine ⟨?_, by decide, by decide⟩
  constructor <;> first | (intro w h; cases h; done) | decide

/-- Both sides of each boundary: delays 299 and 300, modes 0, 1 and 2, and the three session states. -/
theorem meets_InitAcceptance :
    ((idle .ready false 3).seq = .idle ∧ (idle .ready false 3).sess ≠ .uninit) ∧
    ((idle .failed false 0xFFFFFFFF).seq = .idle ∧ (idle .failed false 0xFFFFFFFF).sess ≠ .uninit) ∧
    (State.reset.seq = .idle ∧ State.reset.sess = .uninit ∧ ((299 : Word32) < 300 ∨ (0x01 : Byte) < 0x00)) ∧
    ((300 : Word32) < 300 ∨ (0x01 : Byte) < 0x02) ∧
    ((300 : Word32) ≤ 300 ∧ (0x00 : Byte) ≤ 0x01) ∧ ((300 : Word32) ≤ 0xFFFFFFFF ∧ (0x01 : Byte) ≤ 0x01) := by decide

theorem meets_ReadAcceptance :
    ((idle .ready true 3).seq = .idle ∧ (idle .ready true 3).sess = .ready) ∧
    (State.reset.seq = .idle ∧ State.reset.sess ≠ .ready) ∧
    ((idle .failed false 0xFFFFFFFF).seq = .idle ∧ (idle .failed false 0xFFFFFFFF).sess ≠ .ready) := by decide

theorem meets_IsobfAnswersTheMode :
    ((idle .ready true 3).seq = .idle ∧ (idle .ready true 3).sess = .ready) ∧
    (State.reset.seq = .idle ∧ State.reset.sess ≠ .ready) := by decide

/-- Opcodes 0x00, 0x05 and 0xFF. -/
theorem meets_IllegalWordIsAnswered :
    let s := given (idle .ready true 3) [0x000000000000, 0x000000000005, 0x0000000000FF]
    s.inputs.rst = false ∧ s.seq = .idle ∧ s.cmds = [0x000000000000, 0x000000000005, 0x0000000000FF] ∧
      opcodeOf (0x000000000000 : CommandWord) = 0x00 ∧ (0x05 : Byte) ≤ opcodeOf (0x000000000005 : CommandWord) ∧
      (0x05 : Byte) ≤ opcodeOf (0x0000000000FF : CommandWord) := by decide

theorem meets_BusyBlockHoldsCommands :
    (initAt .iOpen true).seq ≠ .idle ∧ ∃ t, step (given (initAt .iOpen true) [0x000000000002]) = .next t :=
  ⟨by decide, _, rfl⟩

/-- In IDLE no transport request is taken. -/
theorem meets_RequestOutOfPhaseIsNotIssued :
    State.reset.seq ≠ .iOpen ∧ State.reset.seq ≠ .rReq ∧ State.reset.seq ≠ .iWObf ∧ State.reset.seq ≠ .iWPl1 ∧
      State.reset.seq ≠ .iWPl2 ∧ State.reset.seq ≠ .rFetch := by decide

/-- Not yet issued and outstanding; the answers -2^31, -1, 0 and 2^31 - 1; both modes. -/
theorem meets_OpenMicroStep :
    ((initAt .iOpen true).seq = .iOpen ∧ Awaiting (.busOpen 0x52 none) [] (initAt .iOpen true) ∧
      (initAt .iOpen true).inputs.ack = none) ∧
    ((outstanding true).seq = .iOpen ∧ Awaiting (.busOpen 0x52 none) [] (outstanding true) ∧
      (outstanding true).inputs.ack = none) ∧
    (negative 0x80000000 = true ∧ negative 0xFFFFFFFF = true ∧ negative 0 = false ∧ negative 0x7FFFFFFF = false) ∧
    (Awaiting (.busOpen 0x52 none) [] (answered (outstanding true) 0) ∧
      (answered (outstanding true) 0).inputs.ack = some 0 ∧ (answered (outstanding true) 0).mLat = true) ∧
    (Awaiting (.busOpen 0x52 none) [] (answered (outstanding false) 0xFFFFFFFF) ∧
      (answered (outstanding false) 0xFFFFFFFF).inputs.ack = some 0xFFFFFFFF ∧ (outstanding false).mLat = false) :=
  ⟨⟨rfl, rfl, rfl⟩, ⟨rfl, rfl, rfl⟩, by decide, ⟨rfl, rfl, rfl⟩, ⟨rfl, rfl, rfl⟩⟩

theorem meets_WriteRegMicroStep :
    (Awaiting (.busWriteReg 3 0x40 0x00) [] (initAt .iWObf true) ∧ (initAt .iWObf true).seq = .iWObf ∧
      (initAt .iWObf true).inputs.ack = none) ∧
    (Awaiting (.busWriteReg 3 0x40 0x00) [] (answered (initAt .iWObf true) 0) ∧
      (answered (initAt .iWObf true) 0).inputs.ack = some 0) ∧
    (Awaiting (.busWriteReg 3 0xF0 0x55) [] (answered (initAt .iWPl1 false) 0xFFFFFFFF) ∧
      (answered (initAt .iWPl1 false) 0xFFFFFFFF).seq = .iWPl1) ∧
    (Awaiting (.busWriteReg 3 0xFB 0x00) [] (answered (initAt .iWPl2 false) 0x80000000) ∧
      (answered (initAt .iWPl2 false) 0x80000000).seq = .iWPl2) :=
  ⟨⟨rfl, rfl, rfl⟩, ⟨rfl, rfl⟩, ⟨rfl, rfl⟩, ⟨rfl, rfl⟩⟩

theorem meets_RequestByteMicroStep :
    ((readAt .rReq false [] 0).seq = .rReq ∧ Awaiting (.busWriteByte 3 0x00) [] (readAt .rReq false [] 0) ∧
      (readAt .rReq false [] 0).inputs.ack = none) ∧
    (Awaiting (.busWriteByte 3 0x00) [] (answered (readAt .rReq false [] 0) 0xFFFFFFFF) ∧
      (answered (readAt .rReq false [] 0) 0xFFFFFFFF).inputs.ack = some 0xFFFFFFFF) :=
  ⟨⟨rfl, rfl, rfl⟩, ⟨rfl, rfl⟩⟩

/-- CNT at 0, 4, 5, 6 and 7; the answers -1, 0 and 2^31 - 1. -/
theorem meets_FetchMicroStep :
    (∀ r : Word32, ∀ c : BitVec 3, (answered (readAt .rFetch true fetched2 c) r).seq = .rFetch ∧
      Awaiting (.busReadByte 3 none) [.wait 500, .busWriteByte 3 0x00] (answered (readAt .rFetch true fetched2 c) r) ∧
      (answered (readAt .rFetch true fetched2 c) r).inputs.ack = some r ∧
      (answered (readAt .rFetch true fetched2 c) r).cnt = c) ∧
    ((readAt .rFetch true fetched2 2).inputs.ack = none) ∧
    (negative 0xFFFFFFFF = true ∧ negative 0 = false ∧ negative 0x7FFFFFFF = false) ∧
    ((0 : BitVec 3).toNat < 5 ∧ (4 : BitVec 3).toNat < 5 ∧ (5 : BitVec 3).toNat = 5 ∧ 5 < (6 : BitVec 3).toNat ∧
      5 < (7 : BitVec 3).toNat) :=
  ⟨fun _ _ => ⟨rfl, rfl, rfl, rfl⟩, rfl, by decide, by decide⟩

theorem meets_InitWaitMicroStep :
    ((initAt .iWait true).seq = .iWait ∧ (initAt .iWait true).inputs.rst = false ∧ AwaitingTime [] (initAt .iWait true) ∧
      (initAt .iWait true).inputs.wDone = false) ∧
    ((timeUp (initAt .iWait false)).inputs.rst = false ∧ AwaitingTime [] (timeUp (initAt .iWait false)) ∧
      (timeUp (initAt .iWait false)).inputs.wDone = true) :=
  ⟨⟨rfl, rfl, rfl, rfl⟩, ⟨rfl, rfl, rfl⟩⟩

theorem meets_ReadWaitMicroStep :
    (waiting.seq = .rWait ∧ waiting.inputs.rst = false ∧ AwaitingTime [.busWriteByte 3 0x00] waiting ∧
      waiting.inputs.wDone = false) ∧
    ((timeUp waiting).inputs.rst = false ∧ AwaitingTime [.busWriteByte 3 0x00] (timeUp waiting) ∧
      (timeUp waiting).inputs.wDone = true) :=
  ⟨⟨rfl, rfl, rfl, rfl⟩, ⟨rfl, rfl, rfl⟩⟩

theorem meets_DecodeMicroStep :
    let s := readAt .rDecode true fetched6 5
    s.seq = .rDecode ∧ s.inputs.rst = false ∧ Memory.read s.frame 0 = some 0x7E ∧ Memory.read s.frame 1 = some 0x81 ∧
      Memory.read s.frame 2 = some 0x01 ∧ Memory.read s.frame 3 = some 0x02 ∧ Memory.read s.frame 4 = some 0x03 ∧
      Memory.read s.frame 5 = some 0xE4 := by decide

theorem meets_SampleDependsOnFrameAndModeOnly :
    let s := readAt .rDecode true fetched6 5
    let s' := { s with handle := 7, delay := 300, trace := [] }
    s.seq = .rDecode ∧ s'.seq = .rDecode ∧ s.inputs.rst = false ∧ s'.inputs.rst = false ∧ s.obf = s'.obf ∧
      (∀ k < 6, Memory.read s.frame k = Memory.read s'.frame k) ∧
      (∃ t, step s = .next t) ∧ ∃ t, step s' = .next t :=
  ⟨rfl, rfl, rfl, rfl, rfl, fun _ _ => rfl, ⟨_, rfl⟩, ⟨_, rfl⟩⟩

theorem meets_StepRunsTheDecodedInstruction :
    (let s := given (idle .ready true 3) [0x000000000003, 0x000000000004]
     s.inputs.rst = false ∧ s.seq = .idle ∧ s.cmds = [0x000000000003, 0x000000000004] ∧
       decodeCommand 0x000000000003 = .ok .rdval) ∧
    (let s := initAt .iWPl1 false
     s.inputs.rst = false ∧ s.seq.transports = true ∧ decodeRequest s.tReqWord = .ok (.tWriteReg 0xF0 0x55 3)) :=
  ⟨⟨rfl, rfl, rfl, rfl⟩, ⟨rfl, rfl, rfl⟩⟩

theorem meets_UnansweredBlockStandsStill :
    (Invariant (outstanding false) ∧ (outstanding false).inputs.rst = false ∧ (outstanding false).tReqValid = true ∧
      (outstanding false).inputs.ack = none) ∧
    (Invariant waiting ∧ waiting.inputs.rst = false ∧ waiting.wStart = true ∧ waiting.inputs.wDone = false) ∧
    (refused.inputs.rst = false ∧ refused.seq = .idle ∧ refused.cmds = [] ∧ refused.rValid = true) :=
  ⟨⟨inv_outstanding.2, by decide⟩, ⟨inv_outstanding.1, by decide⟩, by decide⟩

theorem meets_LateAnswersAreIgnored :
    (State.reset.seq.transports = false ∧ waiting.seq.transports = false) ∧
    (State.reset.seq ≠ .iWait ∧ State.reset.seq ≠ .rWait) := by decide

theorem meets_ResetWinsInEveryState : (rstHigh (readAt .rFetch false fetched2 2)).inputs.rst = true := rfl

theorem meets_StopsAreNamed :
    (let s := readAt .rDecode true fetched2 5
     s.inputs.rst = false ∧ s.seq = .rDecode ∧ Memory.read s.frame 2 = none ∧ Memory.read s.frame 5 = none) ∧
    (let s := { initAt .iOpen true with tReqWord := 0x04 }
     s.inputs.rst = false ∧ s.seq.transports = true ∧ decodeRequest s.tReqWord = .error (.undefinedRequest 0x04)) :=
  ⟨⟨rfl, rfl, rfl, rfl⟩, ⟨rfl, rfl, rfl⟩⟩

theorem meets_StepKeepsInv : Invariant (readAt .rDecode true fetched6 5) ∧
    ∃ t, step (readAt .rDecode true fetched6 5) = .next t := ⟨inv_waits.2.2, _, rfl⟩

theorem meets_NoStepStopsUnderInv : Invariant (readAt .rDecode true fetched6 5) := inv_waits.2.2

theorem meets_ReadySessionIsImmutable :
    let s := readAt .rFetch true fetched2 2
    Invariant s ∧ s.sess = .ready ∧ s.inputs.rst = false ∧ ∃ t, step s = .next t :=
  ⟨meets_EachPhaseEmitsItsRequest.2.2.2.2.2.1.1, rfl, rfl, _, rfl⟩

/-- With a command (INIT), an illegal word, and nothing presented. -/
theorem meets_FailedSessionRefusesEverything :
    let s (ws : List CommandWord) := given (idle .failed false 0xFFFFFFFF) ws
    (Invariant (s [0x000001F40101, 0x05]) ∧ (s [0x000001F40101, 0x05]).sess = .failed ∧
      (s [0x000001F40101, 0x05]).inputs.rst = false ∧ ∃ t, step (s [0x000001F40101, 0x05]) = .next t) ∧
    (∃ t, step (s [0x05]) = .next t) ∧ ∃ t, step (s []) = .next t :=
  ⟨⟨⟨inv_failed.1, inv_failed.2, inv_failed.3, inv_failed.4, inv_failed.5, inv_failed.6, inv_failed.7, inv_failed.8,
      inv_failed.9, inv_failed.10, inv_failed.11, inv_failed.12, inv_failed.13, inv_failed.14, inv_failed.15,
      inv_failed.16, inv_failed.17, inv_failed.18, inv_failed.19, inv_failed.20, inv_failed.21⟩, rfl, rfl, _, rfl⟩,
    ⟨_, rfl⟩, ⟨_, rfl⟩⟩

/-- The end of INIT, a failed open, a reset and a command. -/
theorem meets_SessionStateWriters :
    (∃ t, step (timeUp (initAt .iWait true)) = .next t) ∧
    (∃ t, step (answered (initAt .iOpen true) 0xFFFFFFFF) = .next t) ∧
    (∃ t, step (rstHigh (initAt .iOpen true)) = .next t) ∧ ∃ t, step (given State.reset [0x02]) = .next t :=
  ⟨⟨_, rfl⟩, ⟨_, rfl⟩, ⟨_, rfl⟩, ⟨_, rfl⟩⟩

/-- A fetch that goes on, one that is not answered, and each list of successors. -/
theorem meets_PhaseSuccessors :
    (Invariant (answered (readAt .rFetch true fetched2 2) 5) ∧
      (answered (readAt .rFetch true fetched2 2) 5).inputs.rst = false ∧
      (answered (readAt .rFetch true fetched2 2) 5).seq ≠ .idle ∧
      ∃ t, step (answered (readAt .rFetch true fetched2 2) 5) = .next t) ∧
    (Invariant (outstanding false) ∧ (outstanding false).inputs.rst = false ∧ ∃ t, step (outstanding false) = .next t) ∧
    (Phase.iOpen ∈ Phase.successors .idle ∧ Phase.idle ∈ Phase.successors .rDecode) := by
  refine ⟨⟨?_, rfl, by decide, _, rfl⟩, ⟨inv_outstanding.2, rfl, _, rfl⟩, by decide⟩
  constructor <;> first | (intro w h; cases h; done) | (intro w h; cases h; rfl) | decide

theorem meets_ResultFileWriters : ∃ t, step (readAt .rDecode true fetched6 5) = .next t := ⟨_, rfl⟩

theorem meets_TraceGrowsByOneEvent :
    (∃ t, step (initAt .iOpen true) = .next t) ∧ ∃ t, step (answered (outstanding true) 3) = .next t :=
  ⟨⟨_, rfl⟩, ⟨_, rfl⟩⟩

/-- The three outcomes of acceptance, at the boundary values of both operands, and an INIT in progress. -/
theorem meets_InitIssuesExactlyItsEvents :
    (Invariant State.reset ∧ (given State.reset [0x0000012C0101]).inputs.rst = false ∧
      decodeCommand 0x0000012C0101 = .ok (.init 300 0x01) ∧ decodeCommand 0x0000012B0001 = .ok (.init 299 0x00) ∧
      decodeCommand 0x0000012C0201 = .ok (.init 300 0x02) ∧
      (∃ t, step (given State.reset [0x0000012C0101]) = .next t) ∧
      (∃ t, step (given State.reset [0x0000012B0001]) = .next t) ∧
      ∃ t, step (given State.reset [0x0000012C0201]) = .next t) ∧
    (Invariant (idle .ready true 3) ∧ (given (idle .ready true 3) [0x0000012C0101]).inputs.rst = false ∧
      ∃ t, step (given (idle .ready true 3) [0x0000012C0101]) = .next t) ∧
    (Invariant (outstanding false) ∧ (outstanding false).inputs.rst = false ∧ (outstanding false).seq ≠ .idle ∧
      InitProgress [] 500 false (outstanding false) ∧ ∃ t, step (outstanding false) = .next t) :=
  ⟨⟨inv_reset, rfl, rfl, rfl, rfl, ⟨_, rfl⟩, ⟨_, rfl⟩, ⟨_, rfl⟩⟩, ⟨inv_ready true, rfl, _, rfl⟩,
    ⟨inv_outstanding.2, rfl, by decide, ⟨rfl, rfl, rfl⟩, _, rfl⟩⟩

theorem meets_ReadCycleIssuesExactlyItsEvents :
    (Invariant (idle .ready true 3) ∧ (given (idle .ready true 3) [0x03]).inputs.rst = false ∧
      decodeCommand 0x03 = .ok .rdval ∧ ∃ t, step (given (idle .ready true 3) [0x03]) = .next t) ∧
    (Invariant waiting ∧ waiting.inputs.rst = false ∧ waiting.seq ≠ .idle ∧ ReadProgress [] 3 500 false waiting ∧
      ∃ t, step waiting = .next t) :=
  ⟨⟨inv_ready true, rfl, rfl, _, rfl⟩,
    ⟨inv_outstanding.1, rfl, by decide, ⟨rfl, rfl, rfl, rfl, rfl⟩, _, rfl⟩⟩

/-- I-3 and I-2: the lowest legal delay in Plain mode, 500 in Obfuscated mode. -/
theorem meets_InitRunsToReady :
    (Invariant (readyToRun [0x000001F40101] [3, 0]) ∧ (readyToRun [0x000001F40101] [3, 0]).seq = .idle ∧
      (readyToRun [0x000001F40101] [3, 0]).sess = .uninit ∧ (readyToRun [0x000001F40101] [3, 0]).inputs.rst = false ∧
      (readyToRun [0x000001F40101] [3, 0]).cmds = [commandWord 500 0x01 0x01] ∧ (300 : Word32) ≤ 500 ∧
      (readyToRun [0x000001F40101] [3, 0]).later = [⟨false, some 3, true⟩, ⟨false, some 0, true⟩, ⟨false, none, true⟩] ∧
      (⟨false, some 3, true⟩ : Inputs).answers 3 ∧ negative 3 = false ∧ (⟨false, none, true⟩ : Inputs).endsWait) ∧
    (Invariant (readyToRun [0x0000012C0001] [0, 0, 0]) ∧
      (readyToRun [0x0000012C0001] [0, 0, 0]).cmds = [commandWord 300 0x00 0x01] ∧ (300 : Word32) ≤ 300 ∧
      negative 0 = false) := by
  refine ⟨⟨?_, rfl, rfl, rfl, rfl, by decide, rfl, ⟨rfl, rfl⟩, rfl, ⟨rfl, rfl⟩⟩, ⟨?_, rfl, by decide, rfl⟩⟩ <;> constructor <;>
    first | (intro w h; cases h; done) | decide

/-- R-11 and R-7, the samples of the inputs that the statement asks for. -/
theorem meets_ReadCycleRunsToSample :
    let s := { idle .ready false 3 with cmds := [0x1234FBCDEF02, 0x03], later := readInputs }
    Invariant s ∧ s.seq = .idle ∧ s.sess = .ready ∧ s.inputs.rst = false ∧
      s.cmds = [0x1234FBCDEF02, 0x03] ∧ opcodeOf (0x1234FBCDEF02 : CommandWord) = 0x02 ∧
      s.later = readInputs ∧ (⟨false, some 0xFFFFFFFF, false⟩ : Inputs).answers 0xFFFFFFFF ∧
      (⟨false, none, true⟩ : Inputs).endsWait ∧ (⟨false, some 0xC3, false⟩ : Inputs).answers 0xC3 ∧
      (∀ r ∈ [0x10, 0x20, 0x30, 0x40, 0x50, 0xC3], negative r = false) := by
  refine ⟨?_, rfl, rfl, rfl, rfl, rfl, rfl, ⟨rfl, rfl⟩, ⟨rfl, rfl⟩, ⟨rfl, rfl⟩, by simp [negative]; decide⟩
  constructor <;> first | (intro w h; cases h; done) | decide

/-- With no command presented, and with one. -/
theorem meets_ResponseIsStable :
    (Invariant refused ∧ refused.inputs.rst = false ∧ refused.rspValid = true ∧ ∃ t, step refused = .next t) ∧
    ∃ t, step (given refused [0x04]) = .next t :=
  ⟨⟨meets_ErrorResponseCarriesNoSample.1, rfl, rfl, _, rfl⟩, _, rfl⟩

end Sys2Proof.Tests
end

section
/-! SUPPORT. Everything a micro-step can do, from any state: one constructor for each ending, from the rules of
40_session_init.md, 41_read_cycle.md and 44_value_mapper_and_query.md. `MicroStepTo.of_next` ties it to `microStep`; the
statements about who writes an element of the state are read off it. -/

namespace Sys2Proof.Machine

/-! ### The events of the transport requests -/

/-- The event that issuing an instruction puts on the trace; a host command issues none itself. -/
def eventOf : Instr → Option Event
  | .init _ _ => none
  | .rdraw => none
  | .rdval => none
  | .isobf => none
  | .tOpen _ val _ => some (.busOpen val none)
  | .tWriteByte _ val handle => some (.busWriteByte handle val)
  | .tWriteReg reg val handle => some (.busWriteReg handle reg val)
  | .tReadByte _ _ handle => some (.busReadByte handle none)

/-- A command word decodes to a host command, never to a transport request. -/
theorem decodeCommand_cases {w : CommandWord} {i : Instr} (h : decodeCommand w = .ok i) :
    (∃ delay mode, i = .init delay mode) ∨ i = .rdraw ∨ i = .rdval ∨ i = .isobf := by
  unfold decodeCommand at h
  grind

/-- A request word decodes to a transport request, never to a host command. -/
theorem decodeRequest_cases {w : RequestWord} {i : Instr} (h : decodeRequest w = .ok i) :
    ∃ reg val handle, i = .tOpen reg val handle ∨ i = .tWriteByte reg val handle ∨ i = .tWriteReg reg val handle ∨
      i = .tReadByte reg val handle := by
  unfold decodeRequest at h
  grind

/-- The request register asks, in a phase that takes the request, for the event `e`. -/
def State.Asks (s : State) (e : Event) : Prop :=
  ∃ i, decodeRequest s.tReqWord = .ok i ∧ takenIn i s.seq = true ∧ eventOf i = some e

/-! ### Phases and fetches -/

/-- An instruction presented outside its phases changes nothing (log entry 10). -/
theorem exec_untaken {i : Instr} {s : State} (h : takenIn i s.seq = false) : exec i s = .next s := by
  cases i <;>
    simp only [exec_init, exec_rdraw, exec_rdval, exec_isobf, exec_tOpen, exec_tWriteByte, exec_tWriteReg,
      exec_tReadByte, whenTaken_untaken _ h]

/-- In IDLE the next micro-step accepts the presented word as the command it stands for. -/
theorem microStep_command {s : State} {w : CommandWord} {rest : List CommandWord} {i : Instr} (hq : s.seq = .idle)
    (hc : s.cmds = w :: rest) (hd : decodeCommand w = .ok i) : microStep s = exec i s.takeCommand := by
  simp [microStep, nextMicro, hq, fetchCommand, hc, hd]

/-- In IDLE with no command presented the next micro-step changes nothing. -/
theorem microStep_idle {s : State} (hq : s.seq = .idle) (hc : s.cmds = []) : microStep s = .next s := by
  simp [microStep, nextMicro, hq, fetchCommand, hc]

/-- In IDLE the next micro-step accepts a presented word that is no command. -/
theorem microStep_illegal {s : State} {w : CommandWord} {rest : List CommandWord} {e : Reject} (hq : s.seq = .idle)
    (hc : s.cmds = w :: rest) (hd : decodeCommand w = .error e) :
    microStep s = .next (illegalCommand s.takeCommand) := by
  simp [microStep, nextMicro, hq, fetchCommand, hc, hd]

theorem microStep_iWait {s : State} (hq : s.seq = .iWait) : microStep s = .next (initWait s) := by
  simp [microStep, nextMicro, hq]

theorem microStep_rWait {s : State} (hq : s.seq = .rWait) : microStep s = .next (readWait s) := by
  simp [microStep, nextMicro, hq]

theorem microStep_rDecode {s : State} (hq : s.seq = .rDecode) : microStep s = readDecode s := by
  simp [microStep, nextMicro, hq]

/-- In a transport phase the next micro-step runs the request of the request register. -/
theorem microStep_request {s : State} {i : Instr} (hq : s.seq.transports = true)
    (hd : decodeRequest s.tReqWord = .ok i) : microStep s = exec i s := by
  cases hp : s.seq <;> simp [hp, Phase.transports, Phase.request] at hq <;>
    simp [microStep, nextMicro, hp, fetchRequest, hd]

/-- The phases that issue a request are those that have one, whatever the handle. -/
theorem transports_of_request {p : Phase} {h : Word32} (hp : p.request h ≠ none) : p.transports = true := by
  cases p <;> simp_all [Phase.transports, Phase.request]

/-- The phases that issue no request. -/
theorem cases_of_not_transports {p : Phase} (hp : p.transports = false) :
    p = .idle ∨ p = .iWait ∨ p = .rWait ∨ p = .rDecode := by
  cases p <;> simp_all [Phase.transports, Phase.request]

/-! ### The endings of a micro-step -/

/-- `MicroStepTo s t`: a micro-step from `s` may end in `t`. The answers are those of the inputs of `s`, and `Asks` gives the
event that its request register names. -/
inductive MicroStepTo (s : State) : State → Prop
  /-- IDLE with no command (60_exceptions.md R227). -/
  | standsIdle (hq : s.seq = .idle) (hc : s.cmds = []) : MicroStepTo s s
  /-- A word that is over at acceptance with an error. No acceptance fails the session. -/
  | refuses (e : ErrorKind) (hq : s.seq = .idle) (hc : s.cmds ≠ []) (he : e ≠ .deviceUnavailable) :
      MicroStepTo s (s.takeCommand.clearResponse.raiseError e)
  /-- A legal INIT (40_session_init.md R121). -/
  | startsInit (delay : Word32) (mode : Byte) (hq : s.seq = .idle) (hc : s.cmds ≠ []) (hs : s.sess = .uninit)
      (hd : Config.minDelay ≤ delay) (hm : modeRecognised mode = true) :
      MicroStepTo s
        (({ s.takeCommand.clearResponse with delay := delay, mLat := mode.getLsbD 0 } : State).enter .iOpen)
  /-- A read cycle in a Ready session (41_read_cycle.md R141). -/
  | startsRead (hq : s.seq = .idle) (hc : s.cmds ≠ []) (hs : s.sess = .ready) :
      MicroStepTo s (s.takeCommand.clearResponse.enter .rReq)
  /-- ISOBF in a Ready session (44_value_mapper_and_query.md R192). -/
  | answersMode (hq : s.seq = .idle) (hc : s.cmds ≠ []) (hs : s.sess = .ready) :
      MicroStepTo s (s.takeCommand.clearResponse.respond statusOk)
  /-- A request that its phase does not take (log entry 10). -/
  | ignoresRequest (i : Instr) (hq : s.seq.transports = true) (hd : decodeRequest s.tReqWord = .ok i)
      (ht : takenIn i s.seq = false) : MicroStepTo s s
  /-- A request issued or outstanding, with no answer (60_exceptions.md R228). -/
  | awaitsAnswer (e : Event) (hq : s.seq.transports = true) (hr : s.Asks e) (ha : s.inputs.ack = none) :
      MicroStepTo s (s.issue e)
  /-- A failed open (40_session_init.md R122). -/
  | failsOpen (e : Event) (r : Word32) (hq : s.seq = .iOpen) (hr : s.Asks e) (ha : s.inputs.ack = some r)
      (hn : negative r = true) :
      MicroStepTo s (({ (s.issue e).answered e r with handle := r } : State).raiseError .deviceUnavailable)
  /-- A good open (40_session_init.md R122). -/
  | opens (e : Event) (r : Word32) (hq : s.seq = .iOpen) (hr : s.Asks e) (ha : s.inputs.ack = some r)
      (hn : negative r = false) :
      MicroStepTo s
        (({ (s.issue e).answered e r with handle := r } : State).enter (if s.mLat then .iWObf else .iWPl1))
  /-- A register write (40_session_init.md R123 to R125). -/
  | writesRegister (e : Event) (r : Word32) (hq : s.seq = .iWObf ∨ s.seq = .iWPl1 ∨ s.seq = .iWPl2) (hr : s.Asks e)
      (ha : s.inputs.ack = some r) : MicroStepTo s (((s.issue e).answered e r).enter s.seq.afterWrite)
  /-- The request byte (41_read_cycle.md R142). -/
  | writesByte (e : Event) (r : Word32) (hq : s.seq = .rReq) (hr : s.Asks e) (ha : s.inputs.ack = some r) :
      MicroStepTo s (((s.issue e).answered e r).enter .rWait)
  /-- A failed fetch (41_read_cycle.md R144). -/
  | failsFetch (e : Event) (r : Word32) (hq : s.seq = .rFetch) (hr : s.Asks e) (ha : s.inputs.ack = some r)
      (hn : negative r = true) : MicroStepTo s (((s.issue e).answered e r).raiseError .deviceRead)
  /-- The sixth byte (41_read_cycle.md R144). -/
  | fetchesLast (e : Event) (r : Word32) (hq : s.seq = .rFetch) (hr : s.Asks e) (ha : s.inputs.ack = some r)
      (hn : negative r = false) (hc : s.cnt.toNat = 5) :
      MicroStepTo s
        (({ (s.issue e).answered e r with frame := Memory.insert s.frame 5 (r.extractLsb' 0 8) } : State).enter .rDecode)
  /-- A byte before the sixth (41_read_cycle.md R144). -/
  | fetches (e : Event) (r : Word32) (hq : s.seq = .rFetch) (hr : s.Asks e) (ha : s.inputs.ack = some r)
      (hn : negative r = false) (hc : s.cnt.toNat < 5) :
      MicroStepTo s
        (({ (s.issue e).answered e r with
            frame := Memory.insert s.frame s.cnt.toNat (r.extractLsb' 0 8), cnt := s.cnt + 1 } : State).enter .rFetch)
  /-- A wait that has not ended (60_exceptions.md R228). -/
  | awaitsTime (hq : s.seq = .iWait ∨ s.seq = .rWait) (hw : s.inputs.wDone = false) : MicroStepTo s s.startWait
  /-- The end of the wait of INIT (40_session_init.md R126). -/
  | finishesInit (hq : s.seq = .iWait) (hw : s.inputs.wDone = true) : MicroStepTo s (finishInit s.endWait)
  /-- The end of the wait of a read cycle (41_read_cycle.md R143). -/
  | startsFetching (hq : s.seq = .rWait) (hw : s.inputs.wDone = true) : MicroStepTo s (startFetching s.endWait)
  /-- The decoding of a complete frame (41_read_cycle.md R145). -/
  | decodes (f : RawFrame) (hq : s.seq = .rDecode) (hf : Memory.raw s.frame = some f) :
      MicroStepTo s (s.respondWith statusOk (sampleOf s.obf f))

namespace MicroStepTo

variable {s t : State}

/-- The endings of an accepted command. -/
theorem of_command {i : Instr} (hq : s.seq = .idle) (hc : s.cmds ≠ [])
    (hi : (∃ delay mode, i = .init delay mode) ∨ i = .rdraw ∨ i = .rdval ∨ i = .isobf)
    (h : exec i s.takeCommand = .next t) : MicroStepTo s t := by
  have refused {e : ErrorKind} (he : e ≠ .deviceUnavailable) :
      MicroStepTo s (s.takeCommand.clearResponse.raiseError e) := .refuses e hq hc he
  have read : MicroStepTo s (acceptRead s.takeCommand) := by
    obtain ⟨-, hr⟩ | ⟨hs, hr⟩ := acceptRead_cases (s := s.takeCommand) <;> rw [hr]
    · exact refused (by decide)
    · exact .startsRead hq hc hs
  have taken : takenIn i s.takeCommand.seq = true := by
    obtain ⟨_, _, rfl⟩ | rfl | rfl | rfl := hi <;> simp [takenIn, hq]
  obtain ⟨delay, mode, rfl⟩ | rfl | rfl | rfl := hi
  · rw [exec_init, whenTaken_taken _ taken] at h
    obtain rfl := Host.Outcome.next.inj h
    obtain ⟨-, hr⟩ | ⟨-, -, hr⟩ | ⟨hs, hd, hm, hr⟩ :=
      acceptInit_cases (delay := delay) (mode := mode) (s := s.takeCommand) <;> rw [hr]
    · exact refused (by decide)
    · exact refused (by decide)
    · exact .startsInit delay mode hq hc hs hd hm
  · rw [exec_rdraw, whenTaken_taken _ taken] at h
    obtain rfl := Host.Outcome.next.inj h
    exact read
  · rw [exec_rdval, whenTaken_taken _ taken] at h
    obtain rfl := Host.Outcome.next.inj h
    exact read
  · rw [exec_isobf, whenTaken_taken _ taken] at h
    obtain rfl := Host.Outcome.next.inj h
    obtain ⟨-, hr⟩ | ⟨hs, hr⟩ := answerMode_cases (s := s.takeCommand) <;> rw [hr]
    · exact refused (by decide)
    · exact .answersMode hq hc hs

/-- The endings of a request that its phase takes: it waits, or goes on with the answer as `k` says. -/
theorem of_transact {e : Event} {k : Word32 → State → Host.Outcome State Fault Refusal}
    (hq : s.seq.transports = true) (hr : s.Asks e) (h : transact s e k = .next t)
    (hk : ∀ r, s.inputs.ack = some r → k r ((s.issue e).answered e r) = .next t → MicroStepTo s t) :
    MicroStepTo s t := by
  obtain ⟨ha, hw⟩ | ⟨r, ha, hw⟩ := transact_cases (s := s) (e := e) (k := k) <;> rw [hw] at h
  · obtain rfl := Host.Outcome.next.inj h
    exact .awaitsAnswer e hq hr ha
  · exact hk r ha h

/-- The endings of the answer to OPEN. -/
theorem of_openAnswered {e : Event} {r : Word32} (hq : s.seq = .iOpen) (hr : s.Asks e) (ha : s.inputs.ack = some r) :
    MicroStepTo s (openAnswered r ((s.issue e).answered e r)) := by
  obtain ⟨hn, ho⟩ | ⟨hn, ho⟩ := openAnswered_cases (r := r) (s := (s.issue e).answered e r) <;> rw [ho]
  · exact .failsOpen e r hq hr ha hn
  · exact .opens e r hq hr ha hn

/-- The endings of a good fetch. -/
theorem of_storeByte {e : Event} {r : Word32} (hq : s.seq = .rFetch) (hr : s.Asks e) (ha : s.inputs.ack = some r)
    (hn : negative r = false) (h : storeByte (r.extractLsb' 0 8) ((s.issue e).answered e r) = .next t) :
    MicroStepTo s t := by
  obtain ⟨-, hb⟩ | ⟨hc, hb⟩ | ⟨hc, hb⟩ :=
    storeByte_cases (v := r.extractLsb' 0 8) (s := (s.issue e).answered e r) <;> rw [hb] at h
  · cases h
  · obtain rfl := Host.Outcome.next.inj h
    exact .fetchesLast e r hq hr ha hn hc
  · obtain rfl := Host.Outcome.next.inj h
    exact .fetches e r hq hr ha hn hc

/-- The endings of a transport request. -/
theorem of_request {i : Instr} (hq : s.seq.transports = true) (hd : decodeRequest s.tReqWord = .ok i)
    (h : exec i s = .next t) : MicroStepTo s t := by
  cases ht : takenIn i s.seq with
  | false =>
    obtain rfl := Host.Outcome.next.inj ((exec_untaken ht).symm.trans h)
    exact .ignoresRequest i hq hd ht
  | true =>
    have asks {e : Event} (he : eventOf i = some e) : s.Asks e := ⟨i, hd, ht, he⟩
    obtain ⟨reg, val, handle, rfl | rfl | rfl | rfl⟩ := decodeRequest_cases hd
    · rw [exec_tOpen, whenTaken_taken _ ht] at h
      refine of_transact hq (asks rfl) h fun r ha hk => ?_
      obtain rfl := Host.Outcome.next.inj hk
      exact of_openAnswered (by simpa [takenIn] using ht) (asks rfl) ha
    · rw [exec_tWriteByte, whenTaken_taken _ ht] at h
      refine of_transact hq (asks rfl) h fun r ha hk => ?_
      rw [ignoringStatus_eq] at hk
      obtain rfl := Host.Outcome.next.inj hk
      exact .writesByte _ r (by simpa [takenIn] using ht) (asks rfl) ha
    · rw [exec_tWriteReg, whenTaken_taken _ ht] at h
      refine of_transact hq (asks rfl) h fun r ha hk => ?_
      rw [ignoringStatus_eq] at hk
      obtain rfl := Host.Outcome.next.inj hk
      exact .writesRegister _ r (by simpa [takenIn, or_assoc] using ht) (asks rfl) ha
    · rw [exec_tReadByte, whenTaken_taken _ ht] at h
      refine of_transact hq (asks rfl) h fun r ha hk => ?_
      have hf : s.seq = .rFetch := by simpa [takenIn] using ht
      cases hn : negative r with
      | true =>
        rw [if_pos hn] at hk
        obtain rfl := Host.Outcome.next.inj hk
        exact .failsFetch _ r hf (asks rfl) ha hn
      | false =>
        rw [if_neg (by simp [hn])] at hk
        exact of_storeByte hf (asks rfl) ha hn hk

/-- Every next state of a micro-step is one of its endings. -/
theorem of_next (h : microStep s = .next t) : MicroStepTo s t := by
  obtain ⟨hq, hc, rfl⟩ | ⟨w, rest, i, hq, hc, hd, he⟩ | ⟨w, rest, e, hq, hc, -, rfl⟩ | ⟨i, hq, hd, he⟩ | ⟨hq, rfl⟩ |
    ⟨hq, rfl⟩ | ⟨hq, hr⟩ := microStep_next h
  · exact .standsIdle hq hc
  · exact of_command hq (by simp [hc]) (decodeCommand_cases hd) he
  · exact .refuses _ hq (by simp [hc]) (by decide)
  · exact of_request (transports_of_request hq) hd he
  · obtain ⟨hw, he⟩ | ⟨hw, he⟩ := timedWait_cases (s := s) (k := finishInit) <;> rw [initWait, he]
    · exact .awaitsTime (.inl hq) hw
    · exact .finishesInit hq hw
  · obtain ⟨hw, he⟩ | ⟨hw, he⟩ := timedWait_cases (s := s) (k := startFetching) <;> rw [readWait, he]
    · exact .awaitsTime (.inr hq) hw
    · exact .startsFetching hq hw
  · obtain ⟨-, hf⟩ | ⟨f, hf, hn⟩ := readDecode_cases (s := s)
    · cases hf.symm.trans hr
    · obtain rfl := Host.Outcome.next.inj (hn.symm.trans hr)
      exact .decodes f hq hf

/-- A micro-step in IDLE stands still if no command is presented; otherwise the command leaves the port and is over, with
a response, or starts its sequence. -/
theorem idle_cases (hq : s.seq = .idle) (h : MicroStepTo s t) :
    s.cmds = [] ∧ t = s ∨
    s.cmds ≠ [] ∧ t.cmds = s.cmds.tail ∧ (t.seq = .idle ∧ t.rValid = true ∨ t.seq = .iOpen ∨ t.seq = .rReq) := by
  cases h with
  | standsIdle _ hc => exact .inl ⟨hc, rfl⟩
  | refuses _ _ hc => exact .inr ⟨hc, rfl, .inl ⟨rfl, rfl⟩⟩
  | answersMode _ hc => exact .inr ⟨hc, rfl, .inl ⟨rfl, rfl⟩⟩
  | startsInit _ _ _ hc => exact .inr ⟨hc, rfl, .inr (.inl rfl)⟩
  | startsRead _ hc => exact .inr ⟨hc, rfl, .inr (.inr rfl)⟩
  | ignoresRequest _ hp | awaitsAnswer _ hp => rw [hq] at hp; cases hp
  | awaitsTime hp | writesRegister _ _ hp => simp [hq] at hp
  | failsOpen _ _ hp | opens _ _ hp | writesByte _ _ hp | failsFetch _ _ hp | fetchesLast _ _ hp | fetches _ _ hp
  | finishesInit hp | startsFetching hp | decodes _ hp => cases hq.symm.trans hp

/-- A micro-step outside IDLE leaves the presented commands alone. -/
theorem cmds_of_busy (hq : s.seq ≠ .idle) (h : MicroStepTo s t) : t.cmds = s.cmds := by
  cases h with
  | refuses _ hi | startsInit _ _ hi | startsRead hi | answersMode hi => exact absurd hi hq
  | _ => rfl

end MicroStepTo

/-- Everything a step can do: a reset, or one of the endings of the micro-step; then the inputs move on. -/
theorem step_endings {s t : State} (h : step s = .next t) :
    s.inputs.rst = true ∧ t = s.applyReset.advance ∨ s.inputs.rst = false ∧ ∃ u, MicroStepTo s u ∧ t = u.advance := by
  obtain hr | ⟨hr, u, hu, rfl⟩ := step_next.mp h
  · exact .inl hr
  · exact .inr ⟨hr, u, .of_next hu, rfl⟩

/-- Without reset a step ends as its micro-step does. -/
theorem step_ending_of_no_reset {s t : State} (hr : s.inputs.rst = false) (h : step s = .next t) :
    ∃ u, MicroStepTo s u ∧ t = u.advance := by
  obtain ⟨hr', -⟩ | ⟨-, hu⟩ := step_endings h
  · cases hr.symm.trans hr'
  · exact hu

end Sys2Proof.Machine
end

section
/-! SUPPORT. A good state after each update: what the invariant asks of a state whose phase has just changed, and of one
that has just issued a request or a wait. -/

namespace Sys2Proof.Machine

/-! ### The trace while an answer is recorded -/

@[simp] theorem permitted_recordAnswer (r : Word32) (t : List Event) :
    (recordAnswer r t).all Event.permitted = t.all Event.permitted := by
  unfold recordAnswer
  split <;> rfl

@[simp] theorem readsSettled_recordAnswer (r : Word32) (t : List Event) :
    readsSettled (recordAnswer r t) = readsSettled t := by
  unfold recordAnswer
  split <;> rfl

@[simp] theorem waitSinceWrite_recordAnswer (r : Word32) (t : List Event) :
    waitSinceWrite (recordAnswer r t) = waitSinceWrite t := by
  unfold recordAnswer
  split <;> rfl

/-! ### The request of a phase -/

theorem decodeRequest_requestWord (handle : Word32) (val reg op : Byte) :
    decodeRequest (requestWord handle val reg op) =
      if op = 0x00 then .ok (.tOpen reg val handle)
      else if op = 0x01 then .ok (.tWriteByte reg val handle)
      else if op = 0x02 then .ok (.tWriteReg reg val handle)
      else if op = 0x03 then .ok (.tReadByte reg val handle)
      else .error (.undefinedRequest op) := by
  simp only [decodeRequest, Laws.opcodeOf_requestWord, Laws.reg_requestWord, Laws.val_requestWord,
    Laws.handle_requestWord]

/-- The instruction of a transport phase (30_encoding.md R101), for handle `h`. -/
def Phase.requestInstr (h : Word32) : Phase → Option Instr
  | .iOpen => some (.tOpen 0 Config.devAddr 0)
  | .iWObf => some (.tWriteReg Config.regObf Config.valObf h)
  | .iWPl1 => some (.tWriteReg Config.regPl1 Config.valPl1 h)
  | .iWPl2 => some (.tWriteReg Config.regPl2 Config.valPl2 h)
  | .rReq => some (.tWriteByte 0 Config.reqByte h)
  | .rFetch => some (.tReadByte 0 0 h)
  | .idle => none
  | .iWait => none
  | .rWait => none
  | .rDecode => none

/-- The event of a transport phase (30_encoding.md R101), for handle `h`. -/
def Phase.event (h : Word32) (p : Phase) : Option Event := (p.requestInstr h).bind eventOf

/-- In a good state the request register of a transport phase decodes to the request of that phase, and the phase takes
it. -/
theorem Invariant.decodeRequest_eq {s : State} (hs : Invariant s) (hq : s.seq.transports = true) :
    ∃ i, decodeRequest s.tReqWord = .ok i ∧ s.seq.requestInstr s.handle = some i ∧ takenIn i s.seq = true := by
  have word := hs.request_word
  cases hp : s.seq <;> simp [hp, Phase.transports, Phase.request] at hq word <;>
    simp [word, decodeRequest_requestWord, Phase.requestInstr, takenIn]

/-- In a good state the event that is asked for is that of the phase. -/
theorem Invariant.event_eq {s : State} {e : Event} (hs : Invariant s) (hq : s.seq.transports = true) (hr : s.Asks e) :
    s.seq.event s.handle = some e := by
  obtain ⟨i, hd, hi, -⟩ := hs.decodeRequest_eq hq
  obtain ⟨j, hd', -, he⟩ := hr
  obtain rfl := Except.ok.inj (hd.symm.trans hd')
  simpa [Phase.event, hi] using he

/-- The event of a phase is permitted (30_encoding.md R101). -/
theorem permitted_of_event {p : Phase} {h : Word32} {e : Event} (he : p.event h = some e) : e.permitted = true := by
  cases p with
  | idle | iWait | rWait | rDecode => cases he
  | iOpen | iWObf | iWPl1 | iWPl2 | rReq | rFetch =>
    obtain rfl := Option.some.inj he
    simp [Event.permitted]

/-- The event of a phase keeps the reads of a trace settled, if a fetch is issued only after a wait. -/
theorem readsSettled_of_event {p : Phase} {h : Word32} {e : Event} {t : List Event} (he : p.event h = some e)
    (ht : readsSettled t = true) (hw : p = .rFetch → waitSinceWrite t = true) : readsSettled (e :: t) = true := by
  cases p with
  | idle | iWait | rWait | rDecode => cases he
  | iOpen | iWObf | iWPl1 | iWPl2 | rReq =>
    obtain rfl := Option.some.inj he
    exact ht
  | rFetch =>
    obtain rfl := Option.some.inj he
    exact Bool.and_eq_true_iff.mpr ⟨hw rfl, ht⟩

/-- The event of a fetch leaves the wait the newest of waits and writes. -/
theorem waitSinceWrite_of_fetch {h : Word32} {e : Event} (t : List Event) (he : Phase.rFetch.event h = some e) :
    waitSinceWrite (e :: t) = waitSinceWrite t := by
  obtain rfl := Option.some.inj he
  rfl

/-! ### Updates outside the phase -/

/-- The invariant does not read the presented commands nor the inputs. -/
theorem Invariant.withPorts {s : State} (hs : Invariant s) (cmds : List CommandWord) (inputs : Inputs)
    (later : List Inputs) : Invariant { s with cmds := cmds, inputs := inputs, later := later } :=
  { hs with }

theorem Invariant.advance {s : State} (hs : Invariant s) : Invariant s.advance := hs.withPorts _ _ _

theorem Invariant.takeCommand {s : State} (hs : Invariant s) : Invariant s.takeCommand := hs.withPorts _ _ _

/-- A state as after reset is good whatever the world outside presents and whatever has been issued before. -/
theorem invariant_applyReset {s : State} (hp : s.trace.all Event.permitted = true)
    (hr : readsSettled s.trace = true) : Invariant s.applyReset where
  frame_wf := Memory.reset_wf
  cnt_le := Nat.zero_le 5
  fetched := nofun
  complete := nofun
  init_uninit := nofun
  read_ready := nofun
  delay_floor h := h.elim nofun nofun
  handle_good h := h.elim nofun nofun
  handle_failed := nofun
  write_mode := ⟨nofun, nofun⟩
  request_word := nofun
  request_phase := nofun
  wait_phase := nofun
  no_response_busy h := absurd rfl h
  response_clear _ := ⟨rfl, rfl, rfl⟩
  error_no_sample h := absurd rfl h
  response_mode := nofun
  status_le := Nat.zero_le 5
  events_permitted := hp
  reads_settled := hr
  fetch_settled h := h.elim nofun nofun

/-! ### A request or a wait outstanding -/

/-- In a transport phase no wait is outstanding. -/
theorem Invariant.wStart_of_transports {s : State} (hs : Invariant s) (hq : s.seq.transports = true) :
    s.wStart = false := by
  refine Bool.eq_false_iff.mpr fun hw => ?_
  obtain hp | hp := hs.wait_phase hw <;> rw [hp] at hq <;> cases hq

/-- Outside the transport phases no request is outstanding. -/
theorem Invariant.tReqValid_of_not_transports {s : State} (hs : Invariant s) (hq : s.seq.transports = false) :
    s.tReqValid = false :=
  Bool.eq_false_iff.mpr fun hr => Bool.eq_false_iff.mp hq (hs.request_phase hr)

/-- Issuing the event of the phase keeps the invariant. -/
theorem Invariant.issue {s : State} {e : Event} (hs : Invariant s) (hq : s.seq.transports = true) (hr : s.Asks e) :
    Invariant (s.issue e) := by
  have he := hs.event_eq hq hr
  have settled : s.seq = .rFetch → waitSinceWrite s.trace = true := fun h => hs.fetch_settled (.inl h)
  refine { hs with
    request_phase := fun _ => hq
    events_permitted := ?_
    reads_settled := ?_
    fetch_settled := ?_ }
  · rw [State.issue_trace]
    split
    · exact hs.events_permitted
    · simp [permitted_of_event he, hs.events_permitted]
  · rw [State.issue_trace]
    split
    · exact hs.reads_settled
    · exact readsSettled_of_event he hs.reads_settled settled
  · rintro (hf | hw)
    · have hf : s.seq = .rFetch := hf
      rw [State.issue_trace]
      split
      · exact settled hf
      · rw [waitSinceWrite_of_fetch _ (hf ▸ he), settled hf]
    · cases (hs.wStart_of_transports hq).symm.trans hw

/-- Asking for the wait of the phase keeps the invariant. -/
theorem Invariant.startWait {s : State} (hs : Invariant s) (hq : s.seq = .iWait ∨ s.seq = .rWait) :
    Invariant s.startWait := by
  have floor : Config.minDelay ≤ s.delay := by
    refine hs.delay_floor (hq.imp (fun h => ?_) fun h => hs.read_ready ?_) <;> rw [h] <;> rfl
  refine { hs with
    wait_phase := fun _ => hq
    events_permitted := ?_
    reads_settled := ?_
    fetch_settled := fun _ => ?_ }
  · rw [State.startWait_trace]
    split
    · exact hs.events_permitted
    · simp [Event.permitted, floor, hs.events_permitted]
  · rw [State.startWait_trace]
    split <;> exact hs.reads_settled
  · rw [State.startWait_trace]
    split
    · next hw => exact hs.fetch_settled (.inr hw)
    · rfl

/-! ### Between two micro-steps -/

/-- What a good state has between two micro-steps, whatever phase comes next: nothing is outstanding. -/
structure Between (s : State) : Prop where
  frame_wf : Memory.wf s.frame = true
  cnt_le : s.cnt.toNat ≤ 5
  delay_ready : s.sess = .ready → Config.minDelay ≤ s.delay
  handle_ready : s.sess = .ready → negative s.handle = false
  handle_failed : s.sess = .failed → negative s.handle = true
  no_request : s.tReqValid = false
  no_wait : s.wStart = false
  events_permitted : s.trace.all Event.permitted = true
  reads_settled : readsSettled s.trace = true

/-- No response is present, and the register of an absent response is clear (10_state.md R36). -/
structure NoResponse (s : State) : Prop where
  valid : s.rValid = false
  status : s.rStatus = 0
  mode : s.rObf = false
  sample : s.x = Sample.zero

/-- What a phase asks of the state that enters it (10_state.md R25, R28, R51). -/
def EntryAllowed (s : State) : Phase → Prop
  | .idle => False
  | .iOpen => s.sess = .uninit ∧ Config.minDelay ≤ s.delay
  | .iWObf => s.sess = .uninit ∧ Config.minDelay ≤ s.delay ∧ negative s.handle = false ∧ s.mLat = true
  | .iWPl1 => s.sess = .uninit ∧ Config.minDelay ≤ s.delay ∧ negative s.handle = false ∧ s.mLat = false
  | .iWPl2 => s.sess = .uninit ∧ Config.minDelay ≤ s.delay ∧ negative s.handle = false ∧ s.mLat = false
  | .iWait => s.sess = .uninit ∧ Config.minDelay ≤ s.delay ∧ negative s.handle = false
  | .rReq => s.sess = .ready
  | .rWait => s.sess = .ready
  | .rFetch =>
      s.sess = .ready ∧ waitSinceWrite s.trace = true ∧ ∀ k < s.cnt.toNat, (Memory.read s.frame k).isSome = true
  | .rDecode => s.sess = .ready ∧ ∀ k < 6, (Memory.read s.frame k).isSome = true

/-- A response from a state between two micro-steps gives a good state. -/
theorem Between.respondWith {s : State} {st : Byte} {y : Sample} (hb : Between s) (hy : st ≠ 0 → y = Sample.zero)
    (hst : st.toNat ≤ 5) : Invariant (s.respondWith st y) where
  frame_wf := hb.frame_wf
  cnt_le := hb.cnt_le
  fetched := nofun
  complete := nofun
  init_uninit := nofun
  read_ready := nofun
  delay_floor h := h.elim nofun hb.delay_ready
  handle_good h := h.elim nofun hb.handle_ready
  handle_failed := hb.handle_failed
  write_mode := ⟨nofun, nofun⟩
  request_word := nofun
  request_phase h := nomatch hb.no_request.symm.trans h
  wait_phase h := nomatch hb.no_wait.symm.trans h
  no_response_busy h := absurd rfl h
  response_clear := nofun
  error_no_sample := hy
  response_mode _ := rfl
  status_le := hst
  events_permitted := hb.events_permitted
  reads_settled := hb.reads_settled
  fetch_settled h := h.elim nofun fun h => nomatch hb.no_wait.symm.trans h

/-- Only a failed open writes the session state (60_exceptions.md R201 to R205). -/
theorem ErrorKind.session_eq {e : ErrorKind} (he : e ≠ .deviceUnavailable) (old : Session) : e.session old = old := by
  cases e <;> simp_all [ErrorKind.session]

/-- An error that leaves the session alone gives a good state. -/
theorem Between.raiseError {s : State} {e : ErrorKind} (hb : Between s) (he : e ≠ .deviceUnavailable) :
    Invariant (s.raiseError e) := by
  rw [State.raiseError, ErrorKind.session_eq he, State.respond]
  exact hb.respondWith (fun _ => rfl) (by cases e <;> decide)

section
variable {s : State} {p : Phase}

theorem EntryAllowed.of_inInit (hp : EntryAllowed s p) (h : p.inInit = true) :
    s.sess = .uninit ∧ Config.minDelay ≤ s.delay := by
  cases p <;> simp_all [EntryAllowed, Phase.inInit]

theorem EntryAllowed.of_afterOpen (hp : EntryAllowed s p) (h : p.afterOpen = true) : negative s.handle = false := by
  cases p <;> simp_all [EntryAllowed, Phase.afterOpen, Phase.inInit]

theorem EntryAllowed.of_inRead (hp : EntryAllowed s p) (h : p.inRead = true) : s.sess = .ready := by
  cases p <;> simp_all [EntryAllowed, Phase.inRead, Phase.inInit]

theorem EntryAllowed.write_mode (hp : EntryAllowed s p) :
    (p = .iWObf → s.mLat = true) ∧ (p = .iWPl1 ∨ p = .iWPl2 → s.mLat = false) := by
  cases p <;> simp_all [EntryAllowed]

/-- A phase entered from a state between two micro-steps gives a good state. -/
theorem Between.enter (hb : Between s) (hc : NoResponse s) (hp : EntryAllowed s p) : Invariant (s.enter p) where
  frame_wf := hb.frame_wf
  cnt_le := hb.cnt_le
  fetched := by rintro (rfl : p = .rFetch); exact hp.2.2
  complete := by rintro (rfl : p = .rDecode); exact hp.2
  init_uninit h := (hp.of_inInit h).1
  read_ready := hp.of_inRead
  delay_floor h := h.elim (fun h => (hp.of_inInit h).2) hb.delay_ready
  handle_good h := h.elim hp.of_afterOpen hb.handle_ready
  handle_failed := hb.handle_failed
  write_mode := hp.write_mode
  request_word w hw := by
    have hw : p.request s.handle = some w := hw
    rw [State.enter_tReqWord, hw, Option.getD_some]
  request_phase h := nomatch hb.no_request.symm.trans h
  wait_phase h := nomatch hb.no_wait.symm.trans h
  no_response_busy _ := hc.valid
  response_clear _ := ⟨hc.status, hc.mode, hc.sample⟩
  error_no_sample _ := hc.sample
  response_mode h := nomatch hc.valid.symm.trans h
  status_le := by rw [State.enter_rStatus, hc.status]; decide
  events_permitted := hb.events_permitted
  reads_settled := hb.reads_settled
  fetch_settled := by
    rintro ((rfl : p = .rFetch) | h)
    · exact hp.2.1
    · exact nomatch hb.no_wait.symm.trans h

end

/-- In a good state with nothing outstanding another micro-step may follow. -/
theorem Invariant.between {s : State} (hs : Invariant s) (hr : s.tReqValid = false) (hw : s.wStart = false) :
    Between s :=
  { hs with
    delay_ready := fun h => hs.delay_floor (.inr h)
    handle_ready := fun h => hs.handle_good (.inr h)
    no_request := hr
    no_wait := hw }

/-- In IDLE and in `R_DECODE` nothing is outstanding. -/
theorem Invariant.between_of_quiet {s : State} (hs : Invariant s) (hq : s.seq = .idle ∨ s.seq = .rDecode) :
    Between s := by
  refine hs.between ?_ ?_
  · exact hs.tReqValid_of_not_transports (by obtain h | h := hq <;> rw [h] <;> rfl)
  · refine Bool.eq_false_iff.mpr fun hw => ?_
    have waits := hs.wait_phase hw
    obtain h | h := hq <;> rw [h] at waits <;> exact waits.elim nofun nofun

/-- Once a command has been accepted the response is clear. -/
theorem Between.accept {s : State} (hb : Between s) : Between s.takeCommand.clearResponse := { hb with }

theorem noResponse_clearResponse (s : State) : NoResponse s.clearResponse := ⟨rfl, rfl, rfl, rfl⟩

/-- While a command is in progress no response is present. -/
theorem Invariant.noResponse {s : State} (hs : Invariant s) (hq : s.seq ≠ .idle) : NoResponse s := by
  have valid := hs.no_response_busy hq
  obtain ⟨status, mode, sample⟩ := hs.response_clear valid
  exact ⟨valid, status, mode, sample⟩

/-- The answer to a request leaves nothing outstanding. -/
theorem Invariant.answered {s : State} (hs : Invariant s) (hq : s.seq.transports = true) (e : Event) (r : Word32) :
    Between (s.answered e r) where
  frame_wf := hs.frame_wf
  cnt_le := hs.cnt_le
  delay_ready h := hs.delay_floor (.inr h)
  handle_ready h := hs.handle_good (.inr h)
  handle_failed := hs.handle_failed
  no_request := rfl
  no_wait := hs.wStart_of_transports hq
  events_permitted := by
    rw [State.answered_trace]
    split <;> simpa using hs.events_permitted
  reads_settled := by
    rw [State.answered_trace]
    split <;> simpa using hs.reads_settled

/-- The answer to a fetch leaves the wait the newest of waits and writes. -/
theorem Invariant.answered_settled {s : State} (hs : Invariant s) (hq : s.seq = .rFetch) (e : Event) (r : Word32) :
    waitSinceWrite (s.answered e r).trace = true := by
  rw [State.answered_trace]
  split <;> simpa using hs.fetch_settled (.inl hq)

/-- The end of a wait leaves nothing outstanding. -/
theorem Invariant.endWait {s : State} (hs : Invariant s) (hq : s.seq = .iWait ∨ s.seq = .rWait) :
    Between s.endWait := by
  have hw := hs.startWait hq
  exact { hw with
    delay_ready := fun h => hw.delay_floor (.inr h)
    handle_ready := fun h => hw.handle_good (.inr h)
    no_request := hs.tReqValid_of_not_transports (by obtain h | h := hq <;> rw [h] <;> rfl)
    no_wait := rfl }

/-- The end of a wait leaves it the newest of waits and writes. -/
theorem Invariant.endWait_settled {s : State} (hs : Invariant s) (hq : s.seq = .iWait ∨ s.seq = .rWait) :
    waitSinceWrite s.endWait.trace = true :=
  (hs.startWait hq).fetch_settled (.inr rfl)

end Sys2Proof.Machine
end

section
/-! SUPPORT. Every step keeps the invariant, and from a state where it holds no step stops. -/

namespace Sys2Proof.Machine

section
variable {s t : State} (hs : Invariant s)
include hs

/-- The session and its operands while INIT runs. -/
theorem Invariant.init_session (hq : s.seq.inInit = true) : s.sess = .uninit ∧ Config.minDelay ≤ s.delay :=
  ⟨hs.init_uninit hq, hs.delay_floor (.inl hq)⟩

/-- After a register write is answered the next phase may be entered. -/
theorem Invariant.entryAllowed_afterWrite (hq : s.seq = .iWObf ∨ s.seq = .iWPl1 ∨ s.seq = .iWPl2)
    (e : Event) (r : Word32) : EntryAllowed (s.answered e r) s.seq.afterWrite := by
  have good : s.seq.afterOpen = true := by obtain h | h | h := hq <;> rw [h] <;> rfl
  have handle := hs.handle_good (.inl good)
  obtain ⟨sess, delay⟩ := hs.init_session (by obtain h | h | h := hq <;> rw [h] <;> rfl)
  obtain h | h | h := hq
  · rw [h]
    exact ⟨sess, delay, handle⟩
  · rw [h]
    exact ⟨sess, delay, handle, hs.write_mode.2 (.inl h)⟩
  · rw [h]
    exact ⟨sess, delay, handle⟩

/-- The bytes fetched so far and the one that is stored make the bytes below the next index. -/
theorem Invariant.fetched_insert (hq : s.seq = .rFetch) (v : Byte) {k : Nat} (hk : k < s.cnt.toNat + 1) :
    (Memory.read (Memory.insert s.frame s.cnt.toNat v) k).isSome = true := by
  by_cases h : k = s.cnt.toNat
  · rw [h, Memory.read_insert_same]
    rfl
  · rw [Memory.read_insert_other _ _ _ _ h]
    exact hs.fetched hq k (by omega)

/-- A stored byte keeps the frame's canonical form. -/
theorem Invariant.wf_insert (v : Byte) : Memory.wf (Memory.insert s.frame s.cnt.toNat v) = true :=
  Memory.above_insert (Nat.zero_le _) (Nat.lt_of_le_of_lt hs.cnt_le (by decide)) hs.frame_wf

/-- Every ending of a micro-step keeps the invariant. -/
theorem Invariant.microStepTo (h : MicroStepTo s t) : Invariant t := by
  have accepted (hq : s.seq = .idle) : Between s.takeCommand.clearResponse := (hs.between_of_quiet (.inl hq)).accept
  have cleared := noResponse_clearResponse s.takeCommand
  cases h with
  | standsIdle => exact hs
  | ignoresRequest => exact hs
  | refuses e hq _ he => exact (accepted hq).raiseError he
  | startsInit delay mode hq _ sess floor =>
    have hb := accepted hq
    refine Between.enter { hb with delay_ready := fun _ => floor } { cleared with } ⟨sess, floor⟩
  | startsRead hq _ sess => exact (accepted hq).enter cleared sess
  | answersMode hq => exact (accepted hq).respondWith (fun _ => rfl) (by decide)
  | awaitsAnswer e hq hr => exact hs.issue hq hr
  | failsOpen e r hq hr _ hn =>
    have hq' : s.seq.transports = true := hq ▸ rfl
    have hb := (hs.issue hq' hr).answered hq' e r
    exact Between.respondWith { hb with
      delay_ready := nofun
      handle_ready := nofun
      handle_failed := fun _ => hn } (fun _ => rfl) (by decide)
  | opens e r hq hr _ hn =>
    have hq' : s.seq.transports = true := hq ▸ rfl
    have hb := (hs.issue hq' hr).answered hq' e r
    have hc := hs.noResponse (by simp [hq])
    obtain ⟨sess, floor⟩ := hs.init_session (hq ▸ rfl)
    refine Between.enter { hb with
      handle_ready := fun _ => hn
      handle_failed := fun h => nomatch sess.symm.trans h } { hc with } ?_
    cases hm : s.mLat
    · exact ⟨sess, floor, hn, hm⟩
    · exact ⟨sess, floor, hn, hm⟩
  | writesRegister e r hq hr =>
    have hq' : s.seq.transports = true := by obtain h | h | h := hq <;> rw [h] <;> rfl
    have hc := hs.noResponse (by obtain h | h | h := hq <;> simp [h])
    have hu := hs.issue hq' hr
    exact (hu.answered hq' e r).enter { hc with } (hu.entryAllowed_afterWrite hq e r)
  | writesByte e r hq hr =>
    have hq' : s.seq.transports = true := hq ▸ rfl
    have hc := hs.noResponse (by simp [hq])
    exact ((hs.issue hq' hr).answered hq' e r).enter { hc with } (hs.read_ready (hq ▸ rfl))
  | failsFetch e r hq hr =>
    have hq' : s.seq.transports = true := hq ▸ rfl
    exact ((hs.issue hq' hr).answered hq' e r).raiseError (by decide)
  | fetchesLast e r hq hr _ _ hcnt =>
    have hq' : s.seq.transports = true := hq ▸ rfl
    have hb := (hs.issue hq' hr).answered hq' e r
    have hc := hs.noResponse (by simp [hq])
    refine Between.enter { hb with frame_wf := ?_ } { hc with } ⟨hs.read_ready (hq ▸ rfl), fun k hk => ?_⟩
    · exact hcnt ▸ hs.wf_insert _
    · exact hcnt ▸ hs.fetched_insert hq _ (by omega)
  | fetches e r hq hr _ _ hcnt =>
    have hq' : s.seq.transports = true := hq ▸ rfl
    have hu := hs.issue hq' hr
    have hb := hu.answered hq' e r
    have hc := hs.noResponse (by simp [hq])
    have next : (s.cnt + 1).toNat = s.cnt.toNat + 1 := by bv_omega
    refine Between.enter { hb with frame_wf := hs.wf_insert _, cnt_le := ?_ } { hc with }
      ⟨hs.read_ready (hq ▸ rfl), hu.answered_settled hq e r, fun k hk => hs.fetched_insert hq _ (next ▸ hk)⟩
    exact next ▸ hcnt
  | awaitsTime hq => exact hs.startWait hq
  | finishesInit hq =>
    have hb := hs.endWait (.inl hq)
    have floor := (hs.init_session (hq ▸ rfl)).2
    have handle := hs.handle_good (.inl (hq ▸ rfl))
    exact Between.respondWith { hb with
      delay_ready := fun _ => floor
      handle_ready := fun _ => handle
      handle_failed := nofun } (fun _ => rfl) (by decide)
  | startsFetching hq =>
    have hb := hs.endWait (.inr hq)
    have hc := hs.noResponse (by simp [hq])
    exact Between.enter { hb with cnt_le := Nat.zero_le 5 } { hc with }
      ⟨hs.read_ready (hq ▸ rfl), hs.endWait_settled (.inr hq), nofun⟩
  | decodes f hq => exact (hs.between_of_quiet (.inr hq)).respondWith (absurd rfl) (by decide)

end

/-! ### Progress -/

/-- A transport micro-step has a next state if what follows the answer has one. -/
theorem transact_total {s : State} {e : Event} {k : Word32 → State → Host.Outcome State Fault Refusal}
    (hk : ∀ r, ∃ t, k r ((s.issue e).answered e r) = .next t) : ∃ t, transact s e k = .next t := by
  obtain ⟨-, h⟩ | ⟨r, -, h⟩ := transact_cases (s := s) (e := e) (k := k) <;> rw [h]
  · exact ⟨_, rfl⟩
  · exact hk r

/-- A byte can be stored while CNT is in range. -/
theorem storeByte_total {s : State} {v : Byte} (hcnt : s.cnt.toNat ≤ 5) : ∃ t, storeByte v s = .next t := by
  obtain ⟨hc, -⟩ | ⟨-, h⟩ | ⟨-, h⟩ := storeByte_cases (v := v) (s := s)
  · omega
  · exact ⟨_, h⟩
  · exact ⟨_, h⟩

/-- While CNT is in range every instruction has a next state. -/
theorem exec_total {s : State} (i : Instr) (hcnt : s.cnt.toNat ≤ 5) : ∃ t, exec i s = .next t := by
  cases ht : takenIn i s.seq with
  | false => exact ⟨s, exec_untaken ht⟩
  | true =>
    cases i with
    | init delay mode => exact ⟨_, by rw [exec_init, whenTaken_taken _ ht]⟩
    | rdraw => exact ⟨_, by rw [exec_rdraw, whenTaken_taken _ ht]⟩
    | rdval => exact ⟨_, by rw [exec_rdval, whenTaken_taken _ ht]⟩
    | isobf => exact ⟨_, by rw [exec_isobf, whenTaken_taken _ ht]⟩
    | tOpen reg val handle =>
      rw [exec_tOpen, whenTaken_taken _ ht]
      exact transact_total fun _ => ⟨_, rfl⟩
    | tWriteByte reg val handle =>
      rw [exec_tWriteByte, whenTaken_taken _ ht]
      exact transact_total fun _ => ⟨_, ignoringStatus_eq _ _⟩
    | tWriteReg reg val handle =>
      rw [exec_tWriteReg, whenTaken_taken _ ht]
      exact transact_total fun _ => ⟨_, ignoringStatus_eq _ _⟩
    | tReadByte reg val handle =>
      rw [exec_tReadByte, whenTaken_taken _ ht]
      refine transact_total fun r => ?_
      split
      · exact ⟨_, rfl⟩
      · exact storeByte_total hcnt

/-- In a good state the micro-step has a next state. -/
theorem Invariant.microStep_total {s : State} (hs : Invariant s) : ∃ t, microStep s = .next t := by
  cases ht : s.seq.transports with
  | true =>
    obtain ⟨i, hd, -⟩ := hs.decodeRequest_eq ht
    rw [microStep_request ht hd]
    exact exec_total i hs.cnt_le
  | false =>
    obtain hq | hq | hq | hq := cases_of_not_transports ht
    · cases hc : s.cmds with
      | nil => exact ⟨s, microStep_idle hq hc⟩
      | cons w rest =>
        cases hd : decodeCommand w with
        | ok i =>
          rw [microStep_command hq hc hd]
          exact exec_total i hs.cnt_le
        | error e => exact ⟨_, microStep_illegal hq hc hd⟩
    · exact ⟨_, microStep_iWait hq⟩
    · exact ⟨_, microStep_rWait hq⟩
    · obtain ⟨f, hf⟩ := Memory.raw_of_complete (hs.complete hq)
      rw [microStep_rDecode hq, readDecode, hf]
      exact ⟨_, rfl⟩

/-! ### Phases -/

/-- In a good state the phase takes the request of the request register. -/
theorem Invariant.takes_request {s : State} {i : Instr} (hs : Invariant s) (hq : s.seq.transports = true)
    (hd : decodeRequest s.tReqWord = .ok i) : takenIn i s.seq = true := by
  obtain ⟨j, hd', -, ht⟩ := hs.decodeRequest_eq hq
  obtain rfl := Except.ok.inj (hd.symm.trans hd')
  exact ht

/-- A request that is not answered keeps its phase. -/
theorem kept_of_no_answer {s t : State} (hq : s.seq.transports = true) (ha : s.inputs.ack = none) : Kept s t := by
  unfold Kept
  cases hp : s.seq <;> simp_all [Phase.transports, Phase.request]

/-- A wait that has not ended keeps its phase. -/
theorem kept_of_no_end {s t : State} (hq : s.seq = .iWait ∨ s.seq = .rWait) (hw : s.inputs.wDone = false) :
    Kept s t := by
  obtain hp | hp := hq <;> simpa only [Kept, hp] using hw

/-- The phase after a register write is the successor of the phase that issued it. -/
theorem afterWrite_mem_successors {p : Phase} (hp : p = .iWObf ∨ p = .iWPl1 ∨ p = .iWPl2) :
    p.afterWrite ∈ p.successors := by
  obtain rfl | rfl | rfl := hp <;> decide

/-- A phase that follows another is IDLE or stands further along. -/
theorem order_of_mem_successors {p q : Phase} (h : q ∈ p.successors) : q = .idle ∨ p.order < q.order := by
  revert q
  cases p <;> simp [Phase.successors, Phase.order]

/-- In a good state a micro-step leads to a successor of its phase, or keeps the phase for a named reason. -/
theorem Invariant.successor_or_kept {s t : State} (hs : Invariant s) (h : MicroStepTo s t) :
    t.seq ∈ s.seq.successors ∨ t.seq = s.seq ∧ Kept s t := by
  cases h with
  | standsIdle hq hc => exact .inr ⟨rfl, by simp only [Kept, hq]; exact .inl hc⟩
  | refuses e hq hc | answersMode hq hc =>
    exact .inr ⟨hq.symm, by simp only [Kept, hq]; exact .inr ⟨hc, rfl, rfl⟩⟩
  | ignoresRequest i hq hd ht => cases ht.symm.trans (hs.takes_request hq hd)
  | awaitsAnswer e hq _ ha => exact .inr ⟨rfl, kept_of_no_answer hq ha⟩
  | awaitsTime hq hw => exact .inr ⟨rfl, kept_of_no_end hq hw⟩
  | fetches e r hq _ ha hn hc =>
    exact .inr ⟨hq.symm, by simp only [Kept, hq]; exact .inr ⟨⟨r, ha, hn⟩, hc, rfl⟩⟩
  | writesRegister e r hq => exact .inl (afterWrite_mem_successors hq)
  | opens e r hq => left; rw [hq, State.enter_seq]; split <;> decide
  | startsInit _ _ hq | startsRead hq | failsOpen _ _ hq | writesByte _ _ hq | failsFetch _ _ hq | fetchesLast _ _ hq
  | finishesInit hq | startsFetching hq | decodes _ hq =>
    left
    simp [hq, Phase.successors, finishInit, startFetching]

/-- A command in progress returns to IDLE exactly when it responds. -/
theorem Invariant.idle_iff_responds {s t : State} (hs : Invariant s) (hq : s.seq ≠ .idle) (h : MicroStepTo s t) :
    t.seq = .idle ↔ t.rValid = true := by
  have silent : ¬ s.rValid = true := by simp [hs.no_response_busy hq]
  cases h with
  | standsIdle hi | refuses _ hi | startsInit _ _ hi | startsRead hi | answersMode hi => exact absurd hi hq
  | failsOpen | failsFetch | finishesInit | decodes => exact iff_of_true rfl rfl
  | ignoresRequest | awaitsAnswer | awaitsTime => exact iff_of_false hq silent
  | opens => exact iff_of_false (by rw [State.enter_seq]; split <;> decide) silent
  | writesRegister e r hp =>
    exact iff_of_false (by obtain h | h | h := hp <;> simp [h, Phase.afterWrite]) silent
  | writesByte | fetchesLast | fetches | startsFetching => exact iff_of_false nofun silent

end Sys2Proof.Machine
end

section
/-! SUPPORT. The statements about the state and its invariant, each from the endings of a micro-step. -/

namespace Sys2Proof.Proofs

open Sys2Proof Sys2Proof.Machine

/-- Settles O37: a reset keeps the trace, and every ending of a micro-step keeps the invariant. -/
theorem stepKeepsInv : Obligations.StepKeepsInv := by
  intro s t hs h
  obtain ⟨-, rfl⟩ | ⟨-, u, hu, rfl⟩ := step_endings h
  · exact (invariant_applyReset hs.events_permitted hs.reads_settled).advance
  · exact (hs.microStepTo hu).advance

/-- Settles O38: reset always answers a next state, and in a good state so does the micro-step. -/
theorem noStepStopsUnderInv : Obligations.NoStepStopsUnderInv := by
  intro s hs
  cases hr : s.inputs.rst with
  | true => exact ⟨_, step_next.mpr (.inl ⟨hr, rfl⟩)⟩
  | false =>
    obtain ⟨u, hu⟩ := hs.microStep_total
    exact ⟨_, step_next.mpr (.inr ⟨hr, u, hu, rfl⟩)⟩

/-- Settles O21: a command is not taken outside IDLE, and no micro-step there touches the port. -/
theorem busyBlockHoldsCommands : Obligations.BusyBlockHoldsCommands := by
  intro s hq
  have untaken {i : Instr} (hi : takenIn i s.seq = (s.seq == .idle)) : exec i s = .next s :=
    exec_untaken (by simpa [hi] using hq)
  refine ⟨fun _ _ => untaken rfl, untaken rfl, untaken rfl, untaken rfl, fun t h => ?_⟩
  obtain ⟨-, rfl⟩ | ⟨-, u, hu, rfl⟩ := step_endings h
  · rfl
  · exact (hu.cmds_of_busy hq :)

/-- Settles O41: of the endings of a micro-step only the end of INIT and a failed open write the session state. -/
theorem sessionStateWriters : Obligations.SessionStateWriters := by
  intro s t h
  obtain ⟨hr, rfl⟩ | ⟨hr, u, hu, rfl⟩ := step_endings h
  · exact .inr (.inl ⟨hr, rfl⟩)
  · cases hu with
    | finishesInit hq hw => exact .inr (.inr (.inl ⟨hr, hq, hw, rfl⟩))
    | failsOpen e r hq _ ha hn => exact .inr (.inr (.inr ⟨hr, hq, ⟨r, ha, hn⟩, rfl⟩))
    | refuses e _ _ he => exact .inl (ErrorKind.session_eq he _)
    | _ => exact .inl rfl

/-- Settles O43: of the endings of a micro-step only the decoding writes a sample; a response without one, and the
acceptance of a command, clear the file. -/
theorem resultFileWriters : Obligations.ResultFileWriters := by
  intro s t h
  obtain ⟨-, rfl⟩ | ⟨hr, u, hu, rfl⟩ := step_endings h
  · exact .inr (.inl rfl)
  · cases hu with
    | decodes f hq => exact .inr (.inr ⟨hr, hq, rfl, rfl⟩)
    | refuses | startsInit | startsRead | answersMode | failsOpen | failsFetch | finishesInit => exact .inr (.inl rfl)
    | _ => exact .inl rfl

/-- Settles O42: the phase that each ending enters or keeps, and the response that each ending in IDLE gives. -/
theorem phaseSuccessors : Obligations.PhaseSuccessors := by
  refine ⟨fun s t hs hr h => ?_, fun _ _ => order_of_mem_successors⟩
  obtain ⟨u, hu, rfl⟩ := step_ending_of_no_reset hr h
  exact ⟨(hs.successor_or_kept hu :), fun hq => (hs.idle_iff_responds hq hu :)⟩

/-- Settles O49: a response is present only in IDLE, where a micro-step with no command presented changes nothing. -/
theorem responseIsStable : Obligations.ResponseIsStable := by
  intro s t hs hr hv h
  obtain ⟨u, hu, rfl⟩ := step_ending_of_no_reset hr h
  have idle : s.seq = .idle :=
    Decidable.byContradiction fun hq => Bool.eq_false_iff.mp (hs.no_response_busy hq) hv
  obtain ⟨-, rfl⟩ | ⟨hc, ht, -⟩ := hu.idle_cases idle
  · exact .inl ⟨hv, rfl⟩
  · exact .inr ⟨by simp [State.cmdReady, idle], hc, ht⟩

/-- Settles O31: with no reset a step is its micro-step, which runs what the phase fetches. -/
theorem stepRunsTheDecodedInstruction : Obligations.StepRunsTheDecodedInstruction := by
  refine ⟨fun s w rest i hr hq hc hd => ?_, fun s i hr hq hd => ?_⟩
  · have taken : s.takeCommand = { s with cmds := rest } := by rw [State.takeCommand, hc]; rfl
    rw [step, if_neg (by simp [hr]), microStep_command hq hc hd, taken]
  · rw [step, if_neg (by simp [hr]), microStep_request hq hd]

/-- Settles O36: the state after reset is that of a reset with nothing issued. -/
theorem resetSatisfiesInv : Obligations.ResetSatisfiesInv := invariant_applyReset (s := State.reset) rfl rfl

end Sys2Proof.Proofs
end

section
/-! SUPPORT. The event trace (20_memory.md R70): what issuing, answering and waiting do to it, hence what a micro-step
does to it, and the statement about it. -/

namespace Sys2Proof.Machine

/-- What one step may make of the trace `old`: nothing, one event more, or the newest event with its answer. -/
def TraceGrows (old new : List Event) : Prop :=
  new = old ∨ (∃ e, new = e :: old) ∨
  (∃ a r rest, old = .busOpen a none :: rest ∧ new = .busOpen a (some r) :: rest) ∨
  (∃ h r rest, old = .busReadByte h none :: rest ∧ new = .busReadByte h (some r) :: rest)

/-- Recording an answer writes it into the newest event if that event waits for one, and otherwise does nothing. -/
theorem traceGrows_recordAnswer (r : Word32) (old : List Event) : TraceGrows old (recordAnswer r old) := by
  unfold recordAnswer
  split
  · exact .inr (.inr (.inl ⟨_, r, _, rfl, rfl⟩))
  · exact .inr (.inr (.inr ⟨_, r, _, rfl, rfl⟩))
  · exact .inl rfl

/-- Recording an answer touches no event but the newest. -/
theorem recordAnswer_cons (r : Word32) (e : Event) (t : List Event) : ∃ e', recordAnswer r (e :: t) = e' :: t := by
  unfold recordAnswer
  split
  · next h => exact ⟨_, congrArg _ (List.cons.inj h).2.symm⟩
  · next h => exact ⟨_, congrArg _ (List.cons.inj h).2.symm⟩
  · exact ⟨e, rfl⟩

/-- An event joins the trace unless it stands there already. -/
theorem traceGrows_unless (b : Bool) (e : Event) (old : List Event) : TraceGrows old (if b then old else e :: old) := by
  cases b with
  | true => exact .inl rfl
  | false => exact .inr (.inl ⟨e, rfl⟩)

theorem traceGrows_issue (s : State) (e : Event) : TraceGrows s.trace (s.issue e).trace :=
  traceGrows_unless s.tReqValid e s.trace

theorem traceGrows_startWait (s : State) : TraceGrows s.trace s.startWait.trace :=
  traceGrows_unless s.wStart (.wait s.delay) s.trace

theorem traceGrows_endWait (s : State) : TraceGrows s.trace s.endWait.trace :=
  traceGrows_unless s.wStart (.wait s.delay) s.trace

/-- A request answered in the step that issues it adds its event with the answer; one already outstanding has the answer
recorded. -/
theorem traceGrows_answered (s : State) (e : Event) (r : Word32) :
    TraceGrows s.trace ((s.issue e).answered e r).trace := by
  rw [State.answered_trace]
  split
  · rw [State.issue_trace]
    cases s.tReqValid with
    | true => exact traceGrows_recordAnswer r s.trace
    | false => exact .inr (.inl (recordAnswer_cons r e s.trace))
  · exact traceGrows_issue s e

/-- Only the micro-steps of a request or of a wait touch the trace. -/
theorem MicroStepTo.traceGrows {s t : State} (h : MicroStepTo s t) : TraceGrows s.trace t.trace := by
  cases h with
  | standsIdle | refuses | startsInit | startsRead | answersMode | ignoresRequest | decodes => exact .inl rfl
  | awaitsAnswer e => exact traceGrows_issue s e
  | failsOpen e r | opens e r | writesRegister e r | writesByte e r | failsFetch e r | fetchesLast e r
  | fetches e r => exact traceGrows_answered s e r
  | awaitsTime => exact traceGrows_startWait s
  | finishesInit | startsFetching => exact traceGrows_endWait s

end Sys2Proof.Machine

namespace Sys2Proof.Proofs

open Sys2Proof Sys2Proof.Machine

/-- Settles O44: a reset keeps the trace, and each ending of a micro-step grows it by one event or by an answer at most. -/
theorem traceGrowsByOneEvent : Obligations.TraceGrowsByOneEvent := by
  intro s t h
  obtain ⟨-, rfl⟩ | ⟨-, u, hu, rfl⟩ := step_endings h
  · exact .inl rfl
  · exact hu.traceGrows

end Sys2Proof.Proofs
end

section
/-! SUPPORT. What the decoders answer, by opcode, the request that a phase runs, and the response word as a number
(30_encoding.md R91, R95, R97, R101, R103). -/

namespace Sys2Proof.Laws

open Sys2Proof.Machine

/-! ### Command words by opcode (R103) -/

/-- The opcode is the word's low byte as a number. -/
theorem opcodeOf_eq_iff {n : Nat} {w : BitVec n} {op : Byte} : opcodeOf w = op ↔ w.toNat % 2 ^ 8 = op.toNat := by
  rw [← BitVec.toNat_inj]
  simp [opcodeOf]

theorem decodeCommand_init {w : CommandWord} (h : opcodeOf w = 0x01) :
    decodeCommand w = .ok (.init (w.extractLsb' 16 32) (w.extractLsb' 8 8)) := by
  simp [decodeCommand, h]

theorem decodeCommand_rdraw {w : CommandWord} (h : opcodeOf w = 0x02) : decodeCommand w = .ok .rdraw := by
  simp [decodeCommand, h]

theorem decodeCommand_rdval {w : CommandWord} (h : opcodeOf w = 0x03) : decodeCommand w = .ok .rdval := by
  simp [decodeCommand, h]

theorem decodeCommand_isobf {w : CommandWord} (h : opcodeOf w = 0x04) : decodeCommand w = .ok .isobf := by
  simp [decodeCommand, h]

theorem decodeCommand_illegal {w : CommandWord} (h1 : opcodeOf w ≠ 0x01) (h2 : opcodeOf w ≠ 0x02)
    (h3 : opcodeOf w ≠ 0x03) (h4 : opcodeOf w ≠ 0x04) : decodeCommand w = .error (.illegalOpcode (opcodeOf w)) := by
  simp only [decodeCommand, if_neg h1, if_neg h2, if_neg h3, if_neg h4]

/-- Outside INIT a command word decodes as its opcode with zeros above it (R107). -/
theorem decodeCommand_opcode_alone {w : CommandWord} (h : opcodeOf w ≠ 0x01) :
    decodeCommand w = decodeCommand (commandWord 0 0 (opcodeOf w)) := by
  simp only [decodeCommand, opcodeOf_commandWord, if_neg h]

/-! ### Request words (R97) -/

/-- A request word that decodes is the encoding of its instruction. -/
theorem encode_of_decodeRequest {w : RequestWord} {i : Instr} (h : decodeRequest w = .ok i) :
    encode i = .request w := by
  obtain ⟨handle, val, reg, op, rfl⟩ : ∃ handle val reg op, w = requestWord handle val reg op :=
    ⟨_, _, _, _, (requestWord_fields w).symm⟩
  rw [decodeRequest_requestWord] at h
  repeat' split at h
  case isFalse.isFalse.isFalse.isFalse => cases h
  all_goals
    obtain rfl := Except.ok.inj h
    subst op
    rfl

/-- A request word is its handle above the 24 bits of its other fields. -/
theorem requestWord_eq_append (handle : Word32) (val reg op : Byte) :
    requestWord handle val reg op = handle ++ (val ++ reg ++ op) := by
  apply BitVec.eq_of_toNat_eq
  rw [toNat_requestWord, toNat_append handle, toNat_append (val ++ reg), toNat_append val]
  omega

/-! ### The request of a phase (R101) -/

theorem fetchCommand_ne_request (ws : List CommandWord) (i : Instr) : fetchCommand ws ≠ .request i := by
  cases ws with
  | nil => nofun
  | cons w _ => cases h : decodeCommand w <;> simp [fetchCommand, h]

theorem fetchRequest_eq_request {w : RequestWord} {i : Instr} :
    fetchRequest w = .request i ↔ decodeRequest w = .ok i := by
  cases h : decodeRequest w <;> simp [fetchRequest, h]

/-- A micro-step runs a request exactly in a transport phase, and then the one of the request register. -/
theorem nextMicro_eq_request {s : State} {i : Instr} :
    nextMicro s = .request i ↔ s.seq.transports = true ∧ decodeRequest s.tReqWord = .ok i := by
  cases hq : s.seq with
  | iOpen | iWObf | iWPl1 | iWPl2 | rReq | rFetch =>
    simp [nextMicro, hq, Phase.transports, Phase.request, fetchRequest_eq_request]
  | idle => simp [nextMicro, hq, Phase.transports, Phase.request, fetchCommand_ne_request]
  | iWait | rWait | rDecode => simp [nextMicro, hq, Phase.transports, Phase.request]

/-- In a good state a phase that has a request runs it. -/
theorem nextMicro_of_requestInstr {s : State} {i : Instr} (hs : Invariant s)
    (hi : s.seq.requestInstr s.handle = some i) : nextMicro s = .request i := by
  have transports : s.seq.transports = true := by
    cases hq : s.seq <;> simp_all [Phase.requestInstr, Phase.transports, Phase.request]
  obtain ⟨j, hd, hj, -⟩ := hs.decodeRequest_eq transports
  obtain rfl := Option.some.inj (hj.symm.trans hi)
  exact nextMicro_eq_request.mpr ⟨transports, hd⟩

/-! ### The response word (R95) -/

/-- The response word as a number: each register times the weight of its lowest bit. -/
theorem toNat_rspWord (s : State) :
    s.rspWord.toNat =
      s.x.az.toNat * 2 ^ 80 + s.x.ay.toNat * 2 ^ 64 + s.x.ax.toNat * 2 ^ 48 + s.x.jy.toNat * 2 ^ 32 +
        s.x.jx.toNat * 2 ^ 16 + s.x.bz.toNat * 2 ^ 10 + s.x.bc.toNat * 2 ^ 9 + s.rObf.toNat * 2 ^ 8 +
        s.rStatus.toNat := by
  simp only [State.rspWord, toNat_append, BitVec.toNat_setWidth_of_le (show 9 ≤ 16 by decide),
    BitVec.toNat_setWidth_of_le (show 11 ≤ 16 by decide), BitVec.toNat_ofBool, BitVec.ofNat_eq_ofNat,
    BitVec.toNat_ofNat]
  omega

/-- A field of the response word as a number. -/
theorem toNat_rspWord_field (s : State) (start len : Nat) :
    (s.rspWord.extractLsb' start len).toNat = s.rspWord.toNat / 2 ^ start % 2 ^ len := by
  rw [BitVec.extractLsb'_toNat, Nat.shiftRight_eq_div_pow]

/-- With the result file clear the response word is the status, the mode bit above it, and zeros. -/
theorem rspWord_of_no_sample {s : State} (hx : s.x = Sample.zero) :
    s.rspWord = (BitVec.ofBool s.rObf ++ s.rStatus).setWidth 96 := by
  apply BitVec.eq_of_toNat_eq
  rw [toNat_rspWord, hx, BitVec.toNat_setWidth_of_le (by decide), toNat_append, BitVec.toNat_ofBool]
  simp [Sample.zero]

/-! ### The assembler (R104) -/

theorem assembleTokens_init_mode (mode : List Char) :
    assembleTokens [['I', 'N', 'I', 'T'], mode] =
      (modeOperand mode).map fun m => commandWord Config.defaultDelay m 0x01 := rfl

theorem assembleTokens_init_delay (delay mode : List Char) :
    assembleTokens [['I', 'N', 'I', 'T'], delay, [','], mode] =
      (numberOf 32 delay).bind fun d => (modeOperand mode).map fun m => commandWord d m 0x01 := by
  change (match numberOf 32 delay, modeOperand mode with
    | some d, some m => some (commandWord d m 0x01)
    | _, _ => none) = _
  cases numberOf 32 delay with
  | none => rfl
  | some d => cases modeOperand mode <;> rfl

theorem numberOf_500 : numberOf 32 ['5', '0', '0'] = some Config.defaultDelay := by decide

end Sys2Proof.Laws
end

section
/-! SUPPORT. The statements about the encodings, each from the laws of its words. -/

namespace Sys2Proof.Proofs

open Sys2Proof Sys2Proof.Machine Sys2Proof.Laws

/-- Settles O1: the opcode of each word is that of its row, and its fields are the operands. -/
theorem decodeOfEncodeIsIdentity : Obligations.DecodeOfEncodeIsIdentity := by
  intro i
  cases i with
  | init delay mode =>
    have fields := decodeCommand_init (opcodeOf_commandWord delay mode 0x01)
    rwa [delay_commandWord, mode_commandWord] at fields
  | rdraw => exact decodeCommand_rdraw (opcodeOf_commandWord 0 0 _)
  | rdval => exact decodeCommand_rdval (opcodeOf_commandWord 0 0 _)
  | isobf => exact decodeCommand_isobf (opcodeOf_commandWord 0 0 _)
  | tOpen reg val handle | tWriteByte reg val handle | tWriteReg reg val handle | tReadByte reg val handle =>
    exact decodeRequest_requestWord handle val reg _

/-- Settles O2: the four fields of a request word are all of it, and the instruction keeps them. -/
theorem requestWordHasOneMeaning : Obligations.RequestWordHasOneMeaning :=
  fun _ _ => encode_of_decodeRequest

/-- Settles O3: the low byte is the opcode, and the fields are quotients of the word. -/
theorem commandWordsDecodeByOpcode : Obligations.CommandWordsDecodeByOpcode := by
  intro w
  refine ⟨fun h => ⟨_, _, decodeCommand_init (opcodeOf_eq_iff.mpr h), ?delay, ?mode⟩,
    fun h => decodeCommand_rdraw (opcodeOf_eq_iff.mpr h), fun h => decodeCommand_rdval (opcodeOf_eq_iff.mpr h),
    fun h => decodeCommand_isobf (opcodeOf_eq_iff.mpr h), fun h => ⟨.illegalOpcode (opcodeOf w), ?illegal⟩⟩
  case delay =>
    rw [BitVec.extractLsb'_toNat, Nat.shiftRight_eq_div_pow]
    exact Nat.mod_eq_of_lt (by omega)
  case mode => rw [BitVec.extractLsb'_toNat, Nat.shiftRight_eq_div_pow]
  case illegal =>
    have other {op : Byte} (hop : op.toNat ≠ 0 ∧ op.toNat < 5) : opcodeOf w ≠ op := by
      rw [Ne, opcodeOf_eq_iff]
      omega
    exact decodeCommand_illegal (other (by decide)) (other (by decide)) (other (by decide)) (other (by decide))

/-- Settles O4: outside INIT a word decodes as its opcode alone; an INIT word is its opcode and its two operands. -/
theorem unusedCommandBitsAreIgnored : Obligations.UnusedCommandBitsAreIgnored := by
  refine ⟨fun w v h hw => ?_, fun w v hw hv h => ?_⟩
  · rw [decodeCommand_opcode_alone hw, h, ← decodeCommand_opcode_alone (h ▸ hw)]
  · rw [decodeCommand_init hw, decodeCommand_init hv] at h
    obtain ⟨hdelay, hmode⟩ := Instr.init.inj (Except.ok.inj h)
    rw [← commandWord_fields w, ← commandWord_fields v, hdelay, hmode, hw, hv]

/-- Settles O6: the request register of a good state holds the request of its phase, and a request that runs is the one
its word encodes. -/
theorem eachPhaseEmitsItsRequest : Obligations.EachPhaseEmitsItsRequest := by
  refine ⟨fun s hs => ?runs, rfl, fun h => ?words⟩
  case runs =>
    have runs {p : Phase} {i : Instr} (hi : p.requestInstr s.handle = some i) (hq : s.seq = p) :
        nextMicro s = .request i := nextMicro_of_requestInstr hs (hq ▸ hi)
    refine ⟨runs rfl, runs rfl, runs rfl, runs rfl, runs rfl, runs rfl, fun i h => ?_⟩
    obtain ⟨hq, hd⟩ := nextMicro_eq_request.mp h
    exact ⟨hq, encode_of_decodeRequest hd⟩
  case words =>
    have word (val reg op : Byte) : Encoded.request (requestWord h val reg op) = .request (h ++ (val ++ reg ++ op)) :=
      congrArg _ (requestWord_eq_append h val reg op)
    exact ⟨word 0x00 0x40 0x02, word 0x55 0xF0 0x02, word 0x00 0xFB 0x02, word 0x00 0x00 0x01, word 0x00 0x00 0x03⟩

/-- Settles O14: in a good state an error response has a clear result file and the mode bit of the session. -/
theorem errorResponseCarriesNoSample : Obligations.ErrorResponseCarriesNoSample := by
  intro s hs hv hst
  rw [rspWord_of_no_sample (hs.error_no_sample hst), hs.response_mode hv, State.modeBit_eq]

/-- Settles O5: each word's low byte is the opcode of its row, or of no row. -/
theorem wordsOfEveryRowDecode : Obligations.WordsOfEveryRowDecode :=
  ⟨rfl, rfl, rfl, rfl, rfl, rfl, rfl, rfl, rfl, rfl⟩

/-- Settles O7: both lines need the mode operand alone, since 500 is the default delay. -/
theorem initWithoutDelayIsInit500 : Obligations.InitWithoutDelayIsInit500 := by
  intro mode
  rw [assembleTokens_init_mode, assembleTokens_init_delay, numberOf_500, Option.bind_some]

/-- Settles O13: each field of the response word is the quotient by its weight, below which the lower fields stay. -/
theorem responseWordLayout : Obligations.ResponseWordLayout := by
  intro s
  refine ⟨?_, ?_, ?_, ?_, ?_, ?_, ?_, ?_, ?_, ?_⟩
  all_goals
    apply BitVec.eq_of_toNat_eq
    have := s.rObf.toNat_lt
    simp only [toNat_rspWord_field, toNat_rspWord, BitVec.toNat_setWidth, BitVec.toNat_ofBool, BitVec.ofNat_eq_ofNat,
      BitVec.toNat_ofNat]
    omega

/-- Settles O22: outside its phases a request is not taken. -/
theorem requestOutOfPhaseIsNotIssued : Obligations.RequestOutOfPhaseIsNotIssued := by
  intro s reg val handle
  refine ⟨fun h => exec_untaken ?_, fun h => exec_untaken ?_, fun h1 h2 h3 => exec_untaken ?_,
    fun h => exec_untaken ?_⟩
  all_goals simp [takenIn, *]

end Sys2Proof.Proofs
end

section
/-! SUPPORT. The micro-steps of INIT as equations on the whole state (40_session_init.md R121 to R126): its acceptance, a
transport request and a wait whose event is on the trace once, and what follows the answer to OPEN. -/

namespace Sys2Proof.Machine

/-! ### Acceptance (R121) -/

/-- The mode codes that name a mode are 0 and 1 (30_encoding.md R93). -/
theorem modeRecognised_iff {mode : Byte} : modeRecognised mode = true ↔ mode ≤ 0x01 := by
  simp only [modeRecognised, Bool.or_eq_true, beq_iff_eq]
  bv_omega

/-- Bit 0 of a mode code that names a mode tells whether it is Obfuscated. -/
theorem getLsbD_zero_of_mode {mode : Byte} (h : mode ≤ 0x01) : mode.getLsbD 0 = (mode == 0x01) := by
  obtain rfl | rfl : mode = 0x00 ∨ mode = 0x01 := by bv_omega
  · rfl
  · rfl

/-- An error answered in IDLE leaves the block in IDLE. -/
theorem raiseError_of_idle {s : State} (hq : s.seq = .idle) (e : ErrorKind) :
    s.clearResponse.raiseError e =
      { s with
        sess := e.session s.sess, rValid := true, rStatus := e.code, rObf := e.session s.sess == .ready && s.obf,
        x := Sample.zero } := by
  rw [hq]
  rfl

theorem acceptInit_refused {s : State} (hs : s.sess ≠ .uninit) (delay : Word32) (mode : Byte) :
    acceptInit delay mode s = s.clearResponse.raiseError .stateRefusal := by
  simp [acceptInit, hs]

theorem acceptInit_illegal {s : State} {delay : Word32} {mode : Byte} (hs : s.sess = .uninit)
    (h : delay < Config.minDelay ∨ modeRecognised mode = false) :
    acceptInit delay mode s = s.clearResponse.raiseError .configuration := by
  by_cases hd : delay < Config.minDelay
  · simp [acceptInit, hs, hd]
  · simp [acceptInit, hs, h.resolve_left hd]

theorem acceptInit_starts {s : State} {delay : Word32} {mode : Byte} (hs : s.sess = .uninit)
    (hd : Config.minDelay ≤ delay) (hm : modeRecognised mode = true) :
    acceptInit delay mode s =
      ({ s.clearResponse with delay := delay, mLat := mode.getLsbD 0 } : State).enter .iOpen := by
  simp [acceptInit, hs, BitVec.not_lt.mpr hd, hm]

/-! ### A transport request (20_memory.md R70, R71) -/

/-- The event as it stands in the trace once its request is answered. -/
def Event.withAnswer (r : Word32) : Event → Event
  | .busOpen a none => .busOpen a (some r)
  | .busReadByte h none => .busReadByte h (some r)
  | e => e

theorem recordAnswer_eq_withAnswer (r : Word32) (e : Event) (t : List Event) :
    recordAnswer r (e :: t) = e.withAnswer r :: t := by
  cases e with
  | busOpen a answer | busReadByte h answer => cases answer <;> rfl
  | busWriteReg | busWriteByte | wait => rfl

theorem withAnswer_of_not_recordsAnswer {e : Event} (h : e.recordsAnswer = false) (r : Word32) :
    e.withAnswer r = e := by
  cases e with
  | busOpen | busReadByte => cases h
  | busWriteReg | busWriteByte | wait => rfl

section
variable {s : State} {e : Event} {t : List Event} {r : Word32} {k : Word32 → State → Host.Outcome State Fault Refusal}

/-- With an answer a transport micro-step goes on with it. -/
theorem transact_some (ha : s.inputs.ack = some r) : transact s e k = k r ((s.issue e).answered e r) := by
  rw [transact, ha]

/-- A request that is not outstanding is about to be issued on top of the trace. -/
theorem awaiting_of_not_valid (h : s.tReqValid = false) : Awaiting e s.trace s := by
  simp [Awaiting, h]

/-- The event joins the trace once: it is on top after the request is issued, also if it was outstanding. -/
theorem Awaiting.issue_eq (h : Awaiting e t s) : s.issue e = { s with tReqValid := true, trace := e :: t } := by
  have trace : (if s.tReqValid then s.trace else e :: s.trace) = e :: t := by
    rw [h]
    split <;> rfl
  rw [State.issue, trace]

theorem Awaiting.answered_eq (h : Awaiting e t s) (r : Word32) :
    (s.issue e).answered e r = { s with tReqValid := false, trace := e.withAnswer r :: t } := by
  rw [h.issue_eq, State.answered]
  cases he : e.recordsAnswer with
  | true => rw [if_pos rfl, recordAnswer_eq_withAnswer]
  | false => rw [if_neg Bool.false_ne_true, withAnswer_of_not_recordsAnswer he]

/-- With no answer the request is outstanding and nothing else happens. -/
theorem Awaiting.transact_unanswered (h : Awaiting e t s) (ha : s.inputs.ack = none) :
    transact s e k = .next { s with tReqValid := true, trace := e :: t } := by
  rw [transact, ha, ← h.issue_eq]

/-- With an answer the micro-step goes on with it, and the event stands answered in the trace. -/
theorem Awaiting.transact_answered (h : Awaiting e t s) (ha : s.inputs.ack = some r) :
    transact s e k = k r { s with tReqValid := false, trace := e.withAnswer r :: t } := by
  rw [transact_some ha, h.answered_eq]

end

/-! ### The answer to OPEN (R122) -/

theorem openAnswered_negative {r : Word32} (hn : negative r = true) (s : State) :
    openAnswered r s = ({ s with handle := r } : State).raiseError .deviceUnavailable := by
  simp [openAnswered, hn]

theorem openAnswered_good {r : Word32} (hn : negative r = false) (s : State) :
    openAnswered r s = ({ s with handle := r } : State).enter (if s.mLat then .iWObf else .iWPl1) := by
  simp [openAnswered, hn]

/-! ### A wait (10_state.md R40) -/

section
variable {s : State} {t : List Event}

/-- A wait that is not outstanding is about to be issued on top of the trace. -/
theorem awaitingTime_of_not_started (h : s.wStart = false) : AwaitingTime s.trace s := by
  simp [AwaitingTime, h]

/-- The wait joins the trace once: it is on top of it whether it was outstanding or not. -/
theorem AwaitingTime.trace_eq (h : AwaitingTime t s) :
    (if s.wStart then s.trace else .wait s.delay :: s.trace) = .wait s.delay :: t := by
  rw [h]
  split <;> rfl

theorem AwaitingTime.startWait_eq (h : AwaitingTime t s) :
    s.startWait = { s with wStart := true, trace := .wait s.delay :: t } := by
  rw [State.startWait, h.trace_eq]

theorem AwaitingTime.endWait_eq (h : AwaitingTime t s) :
    s.endWait = { s with wStart := false, trace := .wait s.delay :: t } := by
  rw [State.endWait, h.trace_eq]

theorem timedWait_unended (hw : s.inputs.wDone = false) (k : State → State) : timedWait s k = s.startWait := by
  simp [timedWait, hw]

theorem timedWait_ended (hw : s.inputs.wDone = true) (k : State → State) : timedWait s k = k s.endWait := by
  simp [timedWait, hw]

/-- Without reset the step at `I_WAIT` is its wait. -/
theorem step_iWait (hr : s.inputs.rst = false) (hq : s.seq = .iWait) : step s = .next (initWait s).advance := by
  rw [step, if_neg (by simp [hr]), microStep_iWait hq, mapNext]

end

end Sys2Proof.Machine
end

section
/-! SUPPORT. The statements about the single micro-steps of INIT, and that a Ready session runs none of them. -/

namespace Sys2Proof.Proofs

open Sys2Proof Sys2Proof.Machine

/-- Settles O16: each of the three endings of the acceptance, written out. -/
theorem initAcceptance : Obligations.InitAcceptance := by
  intro s delay mode hq
  rw [exec_init, whenTaken_taken _ (by simp [takenIn, hq])]
  refine ⟨fun hs => ?refused, fun hs bad => ?illegal, fun hs hd hm => ?starts⟩
  case refused => rw [acceptInit_refused hs, raiseError_of_idle hq]; rfl
  case illegal =>
    have bad' : delay < Config.minDelay ∨ modeRecognised mode = false :=
      bad.imp_right fun h => Bool.eq_false_iff.mpr (mt modeRecognised_iff.mp (BitVec.not_le.mpr h))
    rw [acceptInit_illegal hs bad', raiseError_of_idle hq]
    simp [ErrorKind.session, ErrorKind.code, hs]
  case starts =>
    rw [acceptInit_starts hs hd (modeRecognised_iff.mpr hm), getLsbD_zero_of_mode hm]
    rfl

/-- Settles O23: the open waits for its answer, which then decides between the failure and the write of the mode. -/
theorem openMicroStep : Obligations.OpenMicroStep := by
  intro s reg val handle t hq aw
  rw [exec_tOpen, whenTaken_taken _ (by simp [takenIn, hq])]
  refine ⟨aw.transact_unanswered, fun r ha hn => ?failed, fun r ha hn hm => ?obfuscated, fun r ha hn hm => ?plain⟩
  case failed => rw [aw.transact_answered ha, openAnswered_negative hn]; rfl
  all_goals
    rw [aw.transact_answered ha, openAnswered_good hn, hm]
    rfl

/-- Settles O24: a register write waits for its answer, whose status is not read; the phase decides what is next. -/
theorem writeRegMicroStep : Obligations.WriteRegMicroStep := by
  intro s reg val handle t aw
  have runs (hq : s.seq = .iWObf ∨ s.seq = .iWPl1 ∨ s.seq = .iWPl2) :
      exec (.tWriteReg reg val handle) s =
        transact s (.busWriteReg handle reg val) fun r s => ignoringStatus r (s.enter s.seq.afterWrite) := by
    rw [exec_tWriteReg, whenTaken_taken _ (by simpa [takenIn, or_assoc] using hq)]
  refine ⟨fun hq ha => ?waits, fun status hq ha => ?last, fun status hq ha => ?first⟩
  case waits => rw [runs hq, aw.transact_unanswered ha]
  case last =>
    have next : s.seq.afterWrite = .iWait := by obtain h | h := hq <;> rw [h] <;> rfl
    rw [runs (hq.imp_right .inr), aw.transact_answered ha, ignoringStatus_eq, next]
    rfl
  case first =>
    rw [runs (.inr (.inl hq)), aw.transact_answered ha, ignoringStatus_eq, hq]
    rfl

/-- Settles O27: the wait stands in the trace from the step that issues it, and its end finishes INIT. -/
theorem initWaitMicroStep : Obligations.InitWaitMicroStep := by
  intro s t hq hr aw
  refine ⟨fun hw => ?_, fun hw => ?_⟩
  · rw [step_iWait hr hq, initWait, timedWait_unended hw, aw.startWait_eq]
    rfl
  · rw [step_iWait hr hq, initWait, timedWait_ended hw, aw.endWait_eq]
    rfl

/-- Settles O39: the endings that write the mode, the delay, the handle or the session state are those of INIT, which runs
in an uninitialised session only. -/
theorem readySessionIsImmutable : Obligations.ReadySessionIsImmutable := by
  intro s t hs ready hr h
  have notInit (hq : s.seq.inInit = true) : False := nomatch ready.symm.trans (hs.init_uninit hq)
  obtain ⟨u, hu, rfl⟩ := step_ending_of_no_reset hr h
  cases hu with
  | refuses e _ _ he => exact ⟨rfl, rfl, rfl, (ErrorKind.session_eq he _).trans ready⟩
  | startsInit _ _ _ _ uninit => cases ready.symm.trans uninit
  | failsOpen _ _ hq | opens _ _ hq | finishesInit hq => exact (notInit (hq ▸ rfl)).elim
  | _ => exact ⟨rfl, rfl, rfl, ready⟩

end Sys2Proof.Proofs
end

section
/-! SUPPORT. The steps of INIT in a good state as equations on the whole state (40_session_init.md R121 to R126),
the run of the machine step by step, and the progress of INIT phase by phase (R127). -/

namespace Sys2Proof.Machine

/-! ### One step -/

/-- With no answer a request that its phase takes is outstanding, its event stands on the trace once, and nothing else
happens. -/
theorem exec_unanswered {s : State} {i : Instr} {e : Event} {t : List Event} (ht : takenIn i s.seq = true)
    (he : eventOf i = some e) (aw : Awaiting e t s) (ha : s.inputs.ack = none) :
    exec i s = .next { s with tReqValid := true, trace := e :: t } := by
  cases i with
  | init | rdraw | rdval | isobf => cases he
  | tOpen reg val handle =>
    obtain rfl := Option.some.inj he
    rw [exec_tOpen, whenTaken_taken _ ht, aw.transact_unanswered ha]
  | tWriteByte reg val handle =>
    obtain rfl := Option.some.inj he
    rw [exec_tWriteByte, whenTaken_taken _ ht, aw.transact_unanswered ha]
  | tWriteReg reg val handle =>
    obtain rfl := Option.some.inj he
    rw [exec_tWriteReg, whenTaken_taken _ ht, aw.transact_unanswered ha]
  | tReadByte reg val handle =>
    obtain rfl := Option.some.inj he
    rw [exec_tReadByte, whenTaken_taken _ ht, aw.transact_unanswered ha]

/-- Without reset a step accepts the presented word as the command it stands for. -/
theorem step_of_command {s u : State} {w : CommandWord} {rest : List CommandWord} {i : Instr}
    (hr : s.inputs.rst = false) (hq : s.seq = .idle) (hc : s.cmds = w :: rest) (hd : decodeCommand w = .ok i)
    (hx : exec i { s with cmds := rest } = .next u) : step s = .next u.advance := by
  rw [Proofs.stepRunsTheDecodedInstruction.1 s w rest i hr hq hc hd, hx, mapNext]

section
variable {s u : State} {t : List Event} (hs : Invariant s) (hr : s.inputs.rst = false)
include hs

/-- In a good state the request of a phase is what its request register decodes to, and the phase takes it. -/
theorem Invariant.runs_requestInstr {i : Instr} (hi : s.seq.requestInstr s.handle = some i) :
    s.seq.transports = true ∧ decodeRequest s.tReqWord = .ok i ∧ takenIn i s.seq = true := by
  obtain ⟨hq, hd⟩ := Laws.nextMicro_eq_request.mp (Laws.nextMicro_of_requestInstr hs hi)
  exact ⟨hq, hd, hs.takes_request hq hd⟩

include hr

/-- Without reset a step in a good state runs the request of its phase. -/
theorem Invariant.step_of_request {i : Instr} (hi : s.seq.requestInstr s.handle = some i) (hx : exec i s = .next u) :
    step s = .next u.advance := by
  obtain ⟨hq, hd, -⟩ := hs.runs_requestInstr hi
  rw [Proofs.stepRunsTheDecodedInstruction.2 s i hr hq hd, hx, mapNext]

/-- A step with no answer. -/
theorem Invariant.step_unanswered {i : Instr} {e : Event} (hi : s.seq.requestInstr s.handle = some i)
    (he : eventOf i = some e) (aw : Awaiting e t s) (ha : s.inputs.ack = none) :
    step s = .next ({ s with tReqValid := true, trace := e :: t } : State).advance := by
  obtain ⟨-, -, taken⟩ := hs.runs_requestInstr hi
  exact hs.step_of_request hr hi (exec_unanswered taken he aw ha)

/-- The step that ends an open (R122). -/
theorem Invariant.step_openAnswered {r : Word32} (hq : s.seq = .iOpen) (ha : s.inputs.ack = some r) :
    step s =
      .next (openAnswered r
        ((s.issue (.busOpen Config.devAddr none)).answered (.busOpen Config.devAddr none) r)).advance := by
  have request : s.seq.requestInstr s.handle = some (.tOpen 0 Config.devAddr 0) := by rw [hq]; rfl
  refine hs.step_of_request hr request ?_
  rw [exec_tOpen, whenTaken_taken _ (by simp [takenIn, hq]), transact_some ha]

/-- The step that ends a register write (R123 to R125). -/
theorem Invariant.step_writeAnswered {r : Word32} {reg val : Byte}
    (hi : s.seq.requestInstr s.handle = some (.tWriteReg reg val s.handle)) (ha : s.inputs.ack = some r) :
    step s =
      .next (((s.issue (.busWriteReg s.handle reg val)).answered (.busWriteReg s.handle reg val) r).enter
        s.seq.afterWrite).advance := by
  obtain ⟨-, -, taken⟩ := hs.runs_requestInstr hi
  refine hs.step_of_request hr hi ?_
  rw [exec_tWriteReg, whenTaken_taken _ taken, transact_some ha, ignoringStatus_eq]
  rfl

/-- A register write is outstanding, or answered whatever the status. -/
theorem Invariant.step_write_cases {reg val : Byte}
    (hi : s.seq.requestInstr s.handle = some (.tWriteReg reg val s.handle))
    (aw : Awaiting (.busWriteReg s.handle reg val) t s) (h : step s = .next u) :
    u = ({ s with tReqValid := true, trace := .busWriteReg s.handle reg val :: t } : State).advance ∨
    u = (({ s with tReqValid := false, trace := .busWriteReg s.handle reg val :: t } : State).enter
      s.seq.afterWrite).advance := by
  cases ha : s.inputs.ack with
  | none => exact .inl (Host.Outcome.next.inj (h.symm.trans (hs.step_unanswered hr hi rfl aw ha)))
  | some r =>
    have next := hs.step_writeAnswered hr hi ha
    rw [aw.answered_eq] at next
    exact .inr (Host.Outcome.next.inj (h.symm.trans next))

end

/-- In IDLE neither a request nor a wait is outstanding. -/
theorem Invariant.nothing_outstanding {s : State} (hs : Invariant s) (hq : s.seq = .idle) :
    s.tReqValid = false ∧ s.wStart = false := by
  have between := hs.between_of_quiet (.inl hq)
  exact ⟨between.no_request, between.no_wait⟩

/-! ### Several steps -/

/-- A run goes on from the state of its first step. -/
theorem run_succ {s t : State} (h : step s = .next t) (k : Nat) :
    Host.Core.run Sys2Proof.core (k + 1) s = Host.Core.run Sys2Proof.core k t := by
  have first : Host.Core.step Sys2Proof.core s = .next t := h
  simp only [Host.Core.run, first]

/-- The sample `p` of the inputs stands at the ports, and `ps` are those to come. -/
def State.atSample (s : State) (p : Inputs) (ps : List Inputs) : State := { s with inputs := p, later := ps }

/-- The inputs move on to the next of the samples to come. -/
theorem step_to_sample {s u : State} {p : Inputs} {ps : List Inputs} (h : step s = .next u.advance)
    (hl : u.later = p :: ps) : step s = .next (u.atSample p ps) := by
  rw [h, State.advance, hl]
  rfl

/-- The state `b` brought to the phase `q` of an INIT opened with handle `h`: `w` is the word of the request register and `t`
the trace, and nothing is outstanding. -/
def State.initAt (b : State) (h : Word32) (q : Phase) (w : RequestWord) (t : List Event) : State :=
  { b with handle := h, seq := q, tReqWord := w, trace := t, tReqValid := false, wStart := false }

/-- A legal INIT is accepted in IDLE and its open is answered at once: the write of the mode is next. -/
theorem Invariant.run_opened {s : State} {rest : List CommandWord} {delay h : Word32} {mode : Byte} {p p' : Inputs}
    {ps : List Inputs} (hs : Invariant s) (hq : s.seq = .idle) (uninit : s.sess = .uninit) (hr : s.inputs.rst = false)
    (hc : s.cmds = commandWord delay mode 0x01 :: rest) (floor : 300 ≤ delay) (known : mode ≤ 0x01)
    (hl : s.later = p :: p' :: ps) (answers : p.answers h) (hn : negative h = false) (k : Nat) :
    let b : State := { s.clearResponse with cmds := rest, delay := delay, mLat := mode == 0x01 }
    let q : Phase := if mode == 0x01 then .iWObf else .iWPl1
    let w : RequestWord := (q.request h).getD (requestWord 0 Config.devAddr 0 0x00)
    let u : State := (b.initAt h q w (.busOpen Config.devAddr (some h) :: s.trace)).atSample p' ps
    Invariant u ∧ Host.Core.run Sys2Proof.core (k + 2) s = Host.Core.run Sys2Proof.core k u := by
  obtain ⟨noReset, answer⟩ := answers
  obtain ⟨noRequest, noWait⟩ := hs.nothing_outstanding hq
  obtain ⟨-, -, starts⟩ := Proofs.initAcceptance { s with cmds := rest } delay mode hq
  have accepted := step_to_sample
    (step_of_command hr hq hc (Proofs.decodeOfEncodeIsIdentity (.init delay mode)) (starts uninit floor known)) hl
  have hs1 := Proofs.stepKeepsInv _ _ hs accepted
  have opened := hs1.step_openAnswered noReset rfl answer
  rw [Awaiting.answered_eq (awaiting_of_not_valid ?quiet), openAnswered_good hn] at opened
  case quiet => exact noRequest
  have opened := step_to_sample opened rfl
  have hs2 := Proofs.stepKeepsInv _ _ hs1 opened
  have run := (run_succ accepted (k + 1)).trans (run_succ opened k)
  rw [noWait] at hs2 run
  exact ⟨hs2, run⟩

/-- A register write of INIT is answered at once, whatever the status: the phase after it is next. -/
theorem Invariant.run_written {b : State} {h st : Word32} {q : Phase} {w : RequestWord} {t : List Event}
    {p p' : Inputs} {ps : List Inputs} {reg val : Byte} (hs : Invariant ((b.initAt h q w t).atSample p (p' :: ps)))
    (hi : q.requestInstr h = some (.tWriteReg reg val h)) (answers : p.answers st) (k : Nat) :
    let w' : RequestWord := (q.afterWrite.request h).getD w
    let u : State := (b.initAt h q.afterWrite w' (.busWriteReg h reg val :: t)).atSample p' ps
    Invariant u ∧
      Host.Core.run Sys2Proof.core (k + 1) ((b.initAt h q w t).atSample p (p' :: ps)) =
        Host.Core.run Sys2Proof.core k u := by
  obtain ⟨noReset, answer⟩ := answers
  have written := step_to_sample (hs.step_writeAnswered noReset hi answer) rfl
  exact ⟨Proofs.stepKeepsInv _ _ hs written, run_succ written k⟩

/-- The end of the wait is the last step of INIT. -/
theorem run_initWait {s : State} (hq : s.seq = .iWait) (noWait : s.wStart = false) (ends : s.inputs.endsWait) :
    Host.Core.run Sys2Proof.core 1 s =
      .next (finishInit { s with wStart := false, trace := .wait s.delay :: s.trace }).advance := by
  obtain ⟨noReset, ended⟩ := ends
  have last := step_iWait noReset hq
  rw [initWait, timedWait_ended ended, (awaitingTime_of_not_started noWait).endWait_eq] at last
  exact run_succ last 0

/-! ### The progress of INIT by phase (R127) -/

section
variable {t : List Event} {delay : Word32} {obf : Bool} {s : State}

theorem initProgress_iOpen (hq : s.seq = .iOpen) :
    InitProgress t delay obf s ↔
      s.delay = delay ∧ s.mLat = obf ∧ Awaiting (.busOpen Config.devAddr none) t s := by
  simp only [InitProgress, hq]

theorem initProgress_iWObf (hq : s.seq = .iWObf) :
    InitProgress t delay obf s ↔
      s.delay = delay ∧ s.mLat = obf ∧ obf = true ∧
        Awaiting (.busWriteReg s.handle Config.regObf Config.valObf)
          (.busOpen Config.devAddr (some s.handle) :: t) s := by
  simp only [InitProgress, hq]

theorem initProgress_iWPl1 (hq : s.seq = .iWPl1) :
    InitProgress t delay obf s ↔
      s.delay = delay ∧ s.mLat = obf ∧ obf = false ∧
        Awaiting (.busWriteReg s.handle Config.regPl1 Config.valPl1)
          (.busOpen Config.devAddr (some s.handle) :: t) s := by
  simp only [InitProgress, hq]

theorem initProgress_iWPl2 (hq : s.seq = .iWPl2) :
    InitProgress t delay obf s ↔
      s.delay = delay ∧ s.mLat = obf ∧ obf = false ∧
        Awaiting (.busWriteReg s.handle Config.regPl2 Config.valPl2)
          (.busWriteReg s.handle Config.regPl1 Config.valPl1 :: .busOpen Config.devAddr (some s.handle) :: t) s := by
  simp only [InitProgress, hq]

theorem initProgress_iWait (hq : s.seq = .iWait) :
    InitProgress t delay obf s ↔
      s.delay = delay ∧ s.mLat = obf ∧
        AwaitingTime (initWrites obf s.handle ++ .busOpen Config.devAddr (some s.handle) :: t) s := by
  simp only [InitProgress, hq]

/-- After its acceptance an INIT that is not over stands in one of its own phases. -/
theorem InitProgress.inInit (hp : InitProgress t delay obf s) (hq : s.seq ≠ .idle) : s.seq.inInit = true := by
  obtain ⟨-, -, hp⟩ := hp
  cases h : s.seq <;> simp_all [Phase.inInit]

end

/-! ### A step of INIT (R127) -/

section
variable {s t : State} {base : List Event} {delay : Word32} {obf : Bool} (hs : Invariant s)
  (hr : s.inputs.rst = false) (hp : InitProgress base delay obf s) (h : step s = .next t)
include hs hr hp h

/-- The open is outstanding, failed, or answered with the handle that the write of the mode uses. -/
theorem initProgress_step_iOpen (hq : s.seq = .iOpen) : InitProgress base delay obf t := by
  obtain ⟨rfl, rfl, aw⟩ := (initProgress_iOpen hq).mp hp
  have request : s.seq.requestInstr s.handle = some (.tOpen 0 Config.devAddr 0) := by rw [hq]; rfl
  cases ha : s.inputs.ack with
  | none =>
    obtain rfl := Host.Outcome.next.inj ((hs.step_unanswered hr request rfl aw ha).symm.trans h)
    exact (initProgress_iOpen (by exact hq)).mpr ⟨rfl, rfl, rfl⟩
  | some r =>
    have next := hs.step_openAnswered hr hq ha
    rw [aw.answered_eq] at next
    cases hn : negative r with
    | true =>
      rw [openAnswered_negative hn] at next
      obtain rfl := Host.Outcome.next.inj (next.symm.trans h)
      exact ⟨rfl, rfl, .inr ⟨rfl, rfl, rfl, rfl, hn, rfl⟩⟩
    | false =>
      rw [openAnswered_good hn] at next
      obtain rfl := Host.Outcome.next.inj (next.symm.trans h)
      cases hm : s.mLat with
      | true => exact (initProgress_iWObf (by rfl)).mpr ⟨rfl, rfl, rfl, awaiting_of_not_valid rfl⟩
      | false => exact (initProgress_iWPl1 (by rfl)).mpr ⟨rfl, rfl, rfl, awaiting_of_not_valid rfl⟩

/-- The Obfuscated write is outstanding, or the wait is next. -/
theorem initProgress_step_iWObf (hq : s.seq = .iWObf) : InitProgress base delay obf t := by
  obtain ⟨rfl, hm, rfl, aw⟩ := (initProgress_iWObf hq).mp hp
  obtain rfl | rfl := hs.step_write_cases hr (by rw [hq]; rfl) aw h
  · exact (initProgress_iWObf (by exact hq)).mpr ⟨rfl, hm, rfl, rfl⟩
  · have quiet : s.wStart = false := hs.wStart_of_transports (hq ▸ rfl)
    exact (initProgress_iWait (by simp [hq, Phase.afterWrite])).mpr ⟨rfl, hm, awaitingTime_of_not_started quiet⟩

/-- The first Plain write is outstanding, or the second is next. -/
theorem initProgress_step_iWPl1 (hq : s.seq = .iWPl1) : InitProgress base delay obf t := by
  obtain ⟨rfl, hm, rfl, aw⟩ := (initProgress_iWPl1 hq).mp hp
  obtain rfl | rfl := hs.step_write_cases hr (by rw [hq]; rfl) aw h
  · exact (initProgress_iWPl1 (by exact hq)).mpr ⟨rfl, hm, rfl, rfl⟩
  · exact (initProgress_iWPl2 (by simp [hq, Phase.afterWrite])).mpr ⟨rfl, hm, rfl, awaiting_of_not_valid rfl⟩

/-- The second Plain write is outstanding, or the wait is next. -/
theorem initProgress_step_iWPl2 (hq : s.seq = .iWPl2) : InitProgress base delay obf t := by
  obtain ⟨rfl, hm, rfl, aw⟩ := (initProgress_iWPl2 hq).mp hp
  obtain rfl | rfl := hs.step_write_cases hr (by rw [hq]; rfl) aw h
  · exact (initProgress_iWPl2 (by exact hq)).mpr ⟨rfl, hm, rfl, rfl⟩
  · have quiet : s.wStart = false := hs.wStart_of_transports (hq ▸ rfl)
    exact (initProgress_iWait (by simp [hq, Phase.afterWrite])).mpr ⟨rfl, hm, awaitingTime_of_not_started quiet⟩

/-- The wait is outstanding, or INIT is over with a Ready session. -/
theorem initProgress_step_iWait (hq : s.seq = .iWait) : InitProgress base delay obf t := by
  obtain ⟨rfl, rfl, aw⟩ := (initProgress_iWait hq).mp hp
  obtain ⟨waits, ends⟩ := Proofs.initWaitMicroStep s _ hq hr aw
  cases hw : s.inputs.wDone with
  | false =>
    obtain rfl := Host.Outcome.next.inj ((waits hw).symm.trans h)
    exact (initProgress_iWait (by exact hq)).mpr ⟨rfl, rfl, rfl⟩
  | true =>
    have handle := hs.handle_good (.inl (hq ▸ rfl))
    obtain rfl := Host.Outcome.next.inj ((ends hw).symm.trans h)
    exact ⟨rfl, rfl, .inl ⟨rfl, rfl, rfl, rfl, rfl, handle, rfl⟩⟩

end

end Sys2Proof.Machine
end

section
/-! SUPPORT. The statements about the whole of INIT: its events at every step, and its run when everything is answered at
once. -/

namespace Sys2Proof.Proofs

open Sys2Proof Sys2Proof.Machine

/-- Settles O45: the acceptance has the three endings of R121, and in each phase of INIT a step keeps the progress. -/
theorem initIssuesExactlyItsEvents : Obligations.InitIssuesExactlyItsEvents := by
  refine ⟨fun s t w rest delay mode hs hr hq hc hd h => ?accepted, fun base delay obf s t hs hr hq hp h => ?progress⟩
  case accepted =>
    obtain ⟨refused, illegal, starts⟩ := initAcceptance { s with cmds := rest } delay mode hq
    have ends {u : State} (hx : exec (.init delay mode) { s with cmds := rest } = .next u) : u.advance = t :=
      Host.Outcome.next.inj ((step_of_command hr hq hc hd hx).symm.trans h)
    by_cases uninit : s.sess = .uninit
    · by_cases legal : 300 ≤ delay ∧ mode ≤ 0x01
      · obtain ⟨floor, known⟩ := legal
        obtain rfl := ends (starts uninit floor known)
        obtain ⟨quiet, -⟩ := hs.nothing_outstanding hq
        exact .inr (.inr ⟨uninit, floor, known, rfl, rfl, rfl, awaiting_of_not_valid quiet⟩)
      · have bad : delay < 300 ∨ 0x01 < mode :=
          (Decidable.not_and_iff_not_or_not.mp legal).imp BitVec.not_le.mp BitVec.not_le.mp
        obtain rfl := ends (illegal uninit bad)
        exact .inr (.inl ⟨uninit, bad, hq, rfl, uninit, rfl, rfl⟩)
    · obtain rfl := ends (refused uninit)
      exact .inl ⟨uninit, hq, rfl, rfl, rfl, rfl⟩
  case progress =>
    have running := hp.inInit hq
    cases hphase : s.seq with
    | iOpen => exact initProgress_step_iOpen hs hr hp h hphase
    | iWObf => exact initProgress_step_iWObf hs hr hp h hphase
    | iWPl1 => exact initProgress_step_iWPl1 hs hr hp h hphase
    | iWPl2 => exact initProgress_step_iWPl2 hs hr hp h hphase
    | iWait => exact initProgress_step_iWait hs hr hp h hphase
    | idle | rReq | rWait | rFetch | rDecode => rw [hphase] at running; cases running

/-- Settles O47: after the acceptance and the open each step takes the answer that stands at the port, from a good state
in which its request has not been issued. -/
theorem initRunsToReady : Obligations.InitRunsToReady := by
  refine ⟨?obfuscated, ?plain⟩
  case obfuscated =>
    intro s rest delay h st p1 p2 p3 ps hs hq uninit hr hc floor hl ans hn ans2 ends
    obtain ⟨noRequest, noWait⟩ := hs.nothing_outstanding hq
    obtain ⟨hs2, opened⟩ := hs.run_opened hq uninit hr hc floor (by decide) hl ans hn 2
    obtain ⟨-, written⟩ := hs2.run_written rfl ans2 1
    rw [opened, written, run_initWait, hq, noRequest, noWait]
    · rfl
    case hq => rfl
    case noWait => rfl
    case ends => exact ends
  case plain =>
    intro s rest delay h st st' p1 p2 p3 p4 ps hs hq uninit hr hc floor hl ans hn ans2 ans3 ends
    obtain ⟨noRequest, noWait⟩ := hs.nothing_outstanding hq
    obtain ⟨hs2, opened⟩ := hs.run_opened hq uninit hr hc floor (by decide) hl ans hn 3
    obtain ⟨hs3, first⟩ := hs2.run_written rfl ans2 2
    obtain ⟨-, second⟩ := hs3.run_written rfl ans3 1
    rw [opened, first, second, run_initWait, hq, noRequest, noWait]
    · rfl
    case hq => rfl
    case noWait => rfl
    case ends => exact ends

end Sys2Proof.Proofs
end

section
/-! SUPPORT. The data path of a read cycle as numbers (42_deobfuscation.md R160, 43_frame_unpack.md R171 to R178): no
result register is too narrow for the field it takes. -/

namespace Sys2Proof.Machine

/-- A transformed byte as a number: nine bits hold it (R163). -/
theorem toNat_transformed (obf : Bool) (b : Byte) :
    (transformed obf b).toNat = if obf then (b.toNat ^^^ 0x17) + 0x17 else b.toNat := by
  cases obf with
  | false => exact BitVec.toNat_setWidth_of_le (show 8 ≤ 9 by decide)
  | true =>
    have xor_lt : b.toNat ^^^ 0x17 < 2 ^ 8 := Nat.xor_lt_two_pow b.isLt (show 0x17 < 2 ^ 8 by decide)
    exact Nat.mod_eq_of_lt (show (b.toNat ^^^ 0x17) + 0x17 < 2 ^ 9 by omega)

/-- An axis of nine-bit values needs eleven bits (R178). -/
theorem axis_lt {high d5 : Nat} (hh : high < 2 ^ 9) (hd : d5 < 2 ^ 9) (mask shift : Nat) :
    axis high d5 mask shift < 2 ^ 11 := by
  refine Nat.or_lt_two_pow ?_ ?_
  · rw [Nat.shiftLeft_eq]
    omega
  · calc (d5 &&& mask) >>> shift ≤ d5 &&& mask := Nat.shiftRight_le _ _
      _ ≤ d5 := Nat.and_le_left
      _ < 2 ^ 11 := by omega

/-- The result registers as numbers. -/
def Sample.fields (x : Sample) : Fields :=
  ⟨x.jx.toNat, x.jy.toNat, x.ax.toNat, x.ay.toNat, x.az.toNat, x.bc.toNat, x.bz.toNat⟩

/-- The registers hold the seven fields of nine-bit values exactly (R178). -/
theorem fields_toSample_unpack {d0 d1 d2 d3 d4 d5 : Nat} (h0 : d0 < 2 ^ 9) (h1 : d1 < 2 ^ 9) (h2 : d2 < 2 ^ 9)
    (h3 : d3 < 2 ^ 9) (h4 : d4 < 2 ^ 9) (h5 : d5 < 2 ^ 9) :
    (unpack d0 d1 d2 d3 d4 d5).toSample.fields = unpack d0 d1 d2 d3 d4 d5 := by
  have c : (d5 &&& 0x02) >>> 1 < 2 ^ 1 := by
    have : d5 &&& 0x02 ≤ 0x02 := Nat.and_le_right
    rw [Nat.shiftRight_eq_div_pow]
    omega
  have z : d5 &&& 0x01 < 2 ^ 1 := Nat.lt_succ_of_le Nat.and_le_right
  simp only [Sample.fields, Fields.toSample, unpack, BitVec.toNat_ofNat, Nat.mod_eq_of_lt h0, Nat.mod_eq_of_lt h1,
    Nat.mod_eq_of_lt (axis_lt h2 h5 _ _), Nat.mod_eq_of_lt (axis_lt h3 h5 _ _), Nat.mod_eq_of_lt (axis_lt h4 h5 _ _),
    Nat.mod_eq_of_lt c, Nat.mod_eq_of_lt z]

/-- The sample of a frame holds its fields exactly. -/
theorem fields_sampleOf (obf : Bool) (f : RawFrame) : (sampleOf obf f).fields = fieldsOf obf f := by
  have lt (b : Byte) : (transformed obf b).toNat < 2 ^ 9 := (transformed obf b).isLt
  exact fields_toSample_unpack (lt _) (lt _) (lt _) (lt _) (lt _) (lt _)

end Sys2Proof.Machine
end

section
/-! SUPPORT. The micro-steps of a read cycle as equations on the whole state (41_read_cycle.md R141 to R145). -/

namespace Sys2Proof.Machine

/-! ### Acceptance (R141) -/

/-- RDRAW and RDVAL are taken in IDLE, and both accept a read cycle. -/
theorem exec_read {i : Instr} {s : State} (hi : i = .rdraw ∨ i = .rdval) (hq : s.seq = .idle) :
    exec i s = .next (acceptRead s) := by
  obtain rfl | rfl := hi
  · rw [exec_rdraw, whenTaken_taken _ (by simp [takenIn, hq])]
  · rw [exec_rdval, whenTaken_taken _ (by simp [takenIn, hq])]

theorem acceptRead_refused {s : State} (hs : s.sess ≠ .ready) :
    acceptRead s = s.clearResponse.raiseError .stateRefusal := by
  simp [acceptRead, hs]

theorem acceptRead_starts {s : State} (hs : s.sess = .ready) : acceptRead s = s.clearResponse.enter .rReq := by
  simp [acceptRead, hs]

/-! ### A fetched byte (R144) -/

theorem storeByte_absent {s : State} (h : 5 < s.cnt.toNat) (v : Byte) :
    storeByte v s = .fault .frameIndexAbsent := by
  obtain ⟨-, he⟩ | ⟨hc, -⟩ | ⟨hc, -⟩ := storeByte_cases (v := v) (s := s)
  · exact he
  all_goals omega

theorem storeByte_last {s : State} (h : s.cnt.toNat = 5) (v : Byte) :
    storeByte v s = .next (({ s with frame := Memory.insert s.frame 5 v } : State).enter .rDecode) := by
  obtain ⟨hc, -⟩ | ⟨-, he⟩ | ⟨hc, -⟩ := storeByte_cases (v := v) (s := s)
  case inr.inl => exact he
  all_goals omega

theorem storeByte_more {s : State} (h : s.cnt.toNat < 5) (v : Byte) :
    storeByte v s =
      .next (({ s with
        frame := Memory.insert s.frame s.cnt.toNat v, cnt := s.cnt + 1 } : State).enter .rFetch) := by
  obtain ⟨hc, -⟩ | ⟨hc, -⟩ | ⟨-, he⟩ := storeByte_cases (v := v) (s := s)
  case inr.inr => exact he
  all_goals omega

/-! ### The wait and the decoding (R143, R145) -/

section
variable {s t : State} (hr : s.inputs.rst = false)
include hr

/-- Without reset the step at `R_WAIT` is its wait. -/
theorem step_rWait (hq : s.seq = .rWait) : step s = .next (readWait s).advance := by
  rw [step, if_neg (by simp [hr]), microStep_rWait hq, mapNext]

/-- Without reset the step at `R_DECODE` decodes the frame. -/
theorem step_rDecode (hq : s.seq = .rDecode) : step s = mapNext State.advance (readDecode s) := by
  rw [step, if_neg (by simp [hr]), microStep_rDecode hq]

/-- The step at `R_DECODE` on a complete frame. -/
theorem step_rDecode_of_raw {f : RawFrame} (hq : s.seq = .rDecode) (hf : Memory.raw s.frame = some f) :
    step s = .next (s.respondWith statusOk (sampleOf s.obf f)).advance := by
  rw [step_rDecode hr hq, readDecode, hf]
  rfl

/-- A step at `R_DECODE` has decoded a complete frame. -/
theorem raw_of_step_rDecode (hq : s.seq = .rDecode) (h : step s = .next t) :
    ∃ f, Memory.raw s.frame = some f ∧ t = (s.respondWith statusOk (sampleOf s.obf f)).advance := by
  obtain ⟨-, hd⟩ | ⟨f, hf, -⟩ := readDecode_cases (s := s)
  · rw [step_rDecode hr hq, hd] at h
    cases h
  · exact ⟨f, hf, Host.Outcome.next.inj (h.symm.trans (step_rDecode_of_raw hr hq hf))⟩

end

/-- The raw frame is a function of the six bytes. -/
theorem Memory.raw_congr {m m' : List Host.Cell} (h : ∀ k < 6, Memory.read m k = Memory.read m' k) :
    Memory.raw m = Memory.raw m' := by
  unfold raw
  rw [h 0 (by decide), h 1 (by decide), h 2 (by decide), h 3 (by decide), h 4 (by decide), h 5 (by decide)]

end Sys2Proof.Machine
end

section
/-! SUPPORT. The statements about the single micro-steps of a read cycle. -/

namespace Sys2Proof.Proofs

open Sys2Proof Sys2Proof.Machine

/-- Settles O17: the two endings of the acceptance, written out. -/
theorem readAcceptance : Obligations.ReadAcceptance := by
  intro s i hi hq
  rw [exec_read hi hq]
  refine ⟨fun hs => ?starts, fun hs => ?refused⟩
  case starts => rw [acceptRead_starts hs]; rfl
  case refused =>
    rw [acceptRead_refused hs, raiseError_of_idle hq]
    simp [ErrorKind.session, ErrorKind.code, hs]

/-- Settles O25: the request byte waits for its answer, whose status is not read. -/
theorem requestByteMicroStep : Obligations.RequestByteMicroStep := by
  intro s reg val handle t hq aw
  rw [exec_tWriteByte, whenTaken_taken _ (by simp [takenIn, hq])]
  refine ⟨aw.transact_unanswered, fun status ha => ?_⟩
  rw [aw.transact_answered ha, ignoringStatus_eq]
  rfl

/-- Settles O26: a fetch waits for its answer, whose sign decides between the failure and the byte; the byte goes to the
index CNT, which decides what is next. -/
theorem fetchMicroStep : Obligations.FetchMicroStep := by
  intro s reg val handle t hq aw
  rw [exec_tReadByte, whenTaken_taken _ (by simp [takenIn, hq])]
  refine ⟨aw.transact_unanswered, fun r ha hn => ?failed, fun r ha hn hc => ?more, fun r ha hn hc => ?last,
    fun r ha hn hc => ?absent⟩
  case failed => rw [aw.transact_answered ha, if_pos hn]; rfl
  all_goals rw [aw.transact_answered ha, if_neg (by simp [hn])]
  case more =>
    rw [storeByte_more (by exact hc)]
    exact ⟨_, rfl, Memory.read_insert_same _ _ _, fun k hk => Memory.read_insert_other _ _ _ _ hk⟩
  case last =>
    rw [storeByte_last (by exact hc)]
    exact ⟨_, rfl, Memory.read_insert_same _ _ _, fun k hk => Memory.read_insert_other _ _ _ _ hk⟩
  case absent => exact storeByte_absent (by exact hc) _

/-- Settles O28: the wait stands in the trace from the step that issues it, and its end starts the fetches. -/
theorem readWaitMicroStep : Obligations.ReadWaitMicroStep := by
  intro s t hq hr aw
  refine ⟨fun hw => ?_, fun hw => ?_⟩
  · rw [step_rWait hr hq, readWait, timedWait_unended hw, aw.startWait_eq]
    rfl
  · rw [step_rWait hr hq, readWait, timedWait_ended hw, aw.endWait_eq]
    rfl

/-- Settles O29: the step writes the sample of the frame, whose registers hold the seven fields exactly. -/
theorem decodeMicroStep : Obligations.DecodeMicroStep := by
  intro s b0 b1 b2 b3 b4 b5 hq hr h0 h1 h2 h3 h4 h5 d
  have raw : Memory.raw s.frame = some ⟨b0, b1, b2, b3, b4, b5⟩ := Memory.raw_eq_some.mpr ⟨h0, h1, h2, h3, h4, h5⟩
  have fields :
      (sampleOf s.obf ⟨b0, b1, b2, b3, b4, b5⟩).fields = unpack (d b0) (d b1) (d b2) (d b3) (d b4) (d b5) := by
    rw [fields_sampleOf]
    simp only [fieldsOf, toNat_transformed, d]
  obtain ⟨jx, jy, ax, ay, az, bc, bz⟩ := Fields.mk.inj fields
  exact ⟨_, step_rDecode_of_raw hr hq raw, jx, jy, ax, ay, az, bc, bz⟩

/-- Settles O30: the raw frame is a function of the six bytes, and the sample one of the raw frame and the mode. -/
theorem sampleDependsOnFrameAndModeOnly : Obligations.SampleDependsOnFrameAndModeOnly := by
  intro s s' t t' hq hq' hr hr' mode bytes h h'
  obtain ⟨f, hf, rfl⟩ := raw_of_step_rDecode hr hq h
  obtain ⟨f', hf', rfl⟩ := raw_of_step_rDecode hr' hq' h'
  obtain rfl : f = f' := Option.some.inj (hf.symm.trans ((Memory.raw_congr bytes).trans hf'))
  exact ⟨congrArg (sampleOf · f) mode, rfl⟩

end Sys2Proof.Proofs
end

section
/-! SUPPORT. The progress of a read cycle phase by phase (41_read_cycle.md R146), and its steps in a good state when the
answers are there at once. -/

namespace Sys2Proof.Machine

/-! ### The fetched bytes -/

/-- The newest answer stands on top. -/
theorem fetches_concat (h : Word32) (rs : List Word32) (r : Word32) :
    fetches h (rs ++ [r]) = .busReadByte h (some r) :: fetches h rs := by
  simp [fetches]

theorem stored_nil (m : List Host.Cell) : Stored m [] := nofun

/-- The next byte is stored behind those fetched before. -/
theorem Stored.concat {m m' : List Host.Cell} {rs : List Word32} {r : Word32} (h : Stored m rs)
    (new : Memory.read m' rs.length = some (r.extractLsb' 0 8))
    (old : ∀ k, k ≠ rs.length → Memory.read m' k = Memory.read m k) : Stored m' (rs ++ [r]) := by
  intro k hk
  obtain hlt | rfl : k < rs.length ∨ k = rs.length := by
    rw [List.length_append, List.length_singleton] at hk
    omega
  · rw [old k (Nat.ne_of_lt hlt), h k hlt, List.getElem_append_left hlt]
  · rw [new, List.getElem_concat_length rfl]

/-- Six stored bytes are a raw frame. -/
theorem Stored.raw_eq {m : List Host.Cell} {r0 r1 r2 r3 r4 r5 : Word32} (h : Stored m [r0, r1, r2, r3, r4, r5]) :
    Memory.raw m = some ⟨r0.extractLsb' 0 8, r1.extractLsb' 0 8, r2.extractLsb' 0 8, r3.extractLsb' 0 8,
      r4.extractLsb' 0 8, r5.extractLsb' 0 8⟩ :=
  Memory.raw_eq_some.mpr ⟨h 0 (by simp), h 1 (by simp), h 2 (by simp), h 3 (by simp), h 4 (by simp), h 5 (by simp)⟩

/-- Good answers with one more good answer are good answers. -/
theorem good_concat {rs : List Word32} {r : Word32} (hrs : ∀ q ∈ rs, negative q = false) (hr : negative r = false) :
    ∀ q ∈ rs ++ [r], negative q = false := by
  simpa [or_imp, forall_and] using ⟨hrs, hr⟩

/-- A list of six has six elements. -/
theorem eq_six_of_length {rs : List Word32} (h : rs.length = 6) :
    ∃ r0 r1 r2 r3 r4 r5, rs = [r0, r1, r2, r3, r4, r5] := by
  match rs, h with
  | [r0, r1, r2, r3, r4, r5], _ => exact ⟨r0, r1, r2, r3, r4, r5, rfl⟩

/-! ### The progress of a read cycle by phase (R146) -/

section
variable {t : List Event} {h d : Word32} {obf : Bool} {s : State}

theorem readProgress_rReq (hq : s.seq = .rReq) :
    ReadProgress t h d obf s ↔
      s.sess = .ready ∧ s.handle = h ∧ s.delay = d ∧ s.obf = obf ∧ Awaiting (.busWriteByte h Config.reqByte) t s := by
  simp only [ReadProgress, hq]

theorem readProgress_rWait (hq : s.seq = .rWait) :
    ReadProgress t h d obf s ↔
      s.sess = .ready ∧ s.handle = h ∧ s.delay = d ∧ s.obf = obf ∧
        AwaitingTime (.busWriteByte h Config.reqByte :: t) s := by
  simp only [ReadProgress, hq]

theorem readProgress_rFetch (hq : s.seq = .rFetch) :
    ReadProgress t h d obf s ↔
      s.sess = .ready ∧ s.handle = h ∧ s.delay = d ∧ s.obf = obf ∧
        ∃ rs : List Word32, rs.length = s.cnt.toNat ∧ (∀ r ∈ rs, negative r = false) ∧ Stored s.frame rs ∧
          Awaiting (.busReadByte h none) (fetches h rs ++ cycleStart h d ++ t) s := by
  simp only [ReadProgress, hq]

theorem readProgress_rDecode (hq : s.seq = .rDecode) :
    ReadProgress t h d obf s ↔
      s.sess = .ready ∧ s.handle = h ∧ s.delay = d ∧ s.obf = obf ∧
        ∃ rs : List Word32, rs.length = 6 ∧ (∀ r ∈ rs, negative r = false) ∧ Stored s.frame rs ∧
          s.trace = fetches h rs ++ cycleStart h d ++ t := by
  simp only [ReadProgress, hq]

/-- After its acceptance a read cycle that is not over stands in one of its own phases. -/
theorem ReadProgress.inRead (hp : ReadProgress t h d obf s) (hq : s.seq ≠ .idle) : s.seq.inRead = true := by
  obtain ⟨-, -, -, -, hp⟩ := hp
  cases hphase : s.seq <;> simp_all [Phase.inRead, Phase.inInit]

end

/-! ### A step of a read cycle (R146) -/

/-- The step that ends the write of the request byte (R142). -/
theorem Invariant.step_byteAnswered {s : State} {t : List Event} {r : Word32} (hs : Invariant s)
    (hr : s.inputs.rst = false) (hq : s.seq = .rReq) (aw : Awaiting (.busWriteByte s.handle Config.reqByte) t s)
    (ha : s.inputs.ack = some r) :
    step s =
      .next ({ s with
        seq := .rWait, tReqValid := false,
        trace := .busWriteByte s.handle Config.reqByte :: t } : State).advance := by
  obtain ⟨-, written⟩ := Proofs.requestByteMicroStep s 0 _ _ _ hq aw
  exact hs.step_of_request hr (by rw [hq]; rfl) (written r ha)

section
variable {s t : State} {base : List Event} {h d : Word32} {obf : Bool} (hs : Invariant s)
  (hr : s.inputs.rst = false) (hp : ReadProgress base h d obf s) (hstep : step s = .next t)
include hr hp hstep

/-- The cycle is over with the sample of its six answers. -/
theorem readProgress_step_rDecode (hq : s.seq = .rDecode) : ReadProgress base h d obf t := by
  obtain ⟨ready, rfl, rfl, rfl, rs, six, good, stored, trace⟩ := (readProgress_rDecode hq).mp hp
  obtain ⟨r0, r1, r2, r3, r4, r5, rfl⟩ := eq_six_of_length six
  obtain rfl := Host.Outcome.next.inj ((step_rDecode_of_raw hr hq stored.raw_eq).symm.trans hstep)
  have mode : s.modeBit = s.obf := by simp [ready]
  exact ⟨ready, rfl, rfl, rfl, rfl, mode, .inl ⟨rfl, r0, r1, r2, r3, r4, r5, good, trace, rfl⟩⟩

include hs

/-- The request byte is outstanding, or the wait is next. -/
theorem readProgress_step_rReq (hq : s.seq = .rReq) : ReadProgress base h d obf t := by
  obtain ⟨ready, rfl, rfl, rfl, aw⟩ := (readProgress_rReq hq).mp hp
  cases ha : s.inputs.ack with
  | none =>
    have waits := hs.step_unanswered hr (by rw [hq]; rfl) rfl aw ha
    obtain rfl := Host.Outcome.next.inj (waits.symm.trans hstep)
    exact (readProgress_rReq (by exact hq)).mpr ⟨ready, rfl, rfl, rfl, rfl⟩
  | some r =>
    have quiet : s.wStart = false := hs.wStart_of_transports (hq ▸ rfl)
    obtain rfl := Host.Outcome.next.inj ((hs.step_byteAnswered hr hq aw ha).symm.trans hstep)
    exact (readProgress_rWait (by rfl)).mpr ⟨ready, rfl, rfl, rfl, awaitingTime_of_not_started quiet⟩

/-- The wait is outstanding, or the first fetch is next. -/
theorem readProgress_step_rWait (hq : s.seq = .rWait) : ReadProgress base h d obf t := by
  obtain ⟨ready, rfl, rfl, rfl, aw⟩ := (readProgress_rWait hq).mp hp
  obtain ⟨waits, ends⟩ := Proofs.readWaitMicroStep s _ hq hr aw
  cases hw : s.inputs.wDone with
  | false =>
    obtain rfl := Host.Outcome.next.inj ((waits hw).symm.trans hstep)
    exact (readProgress_rWait (by exact hq)).mpr ⟨ready, rfl, rfl, rfl, rfl⟩
  | true =>
    have quiet : s.tReqValid = false := hs.tReqValid_of_not_transports (hq ▸ rfl)
    obtain rfl := Host.Outcome.next.inj ((ends hw).symm.trans hstep)
    exact (readProgress_rFetch (by rfl)).mpr
      ⟨ready, rfl, rfl, rfl, [], rfl, nofun, stored_nil _, awaiting_of_not_valid quiet⟩

/-- A fetch is outstanding, ends the cycle, or adds its byte to those in the frame. -/
theorem readProgress_step_rFetch (hq : s.seq = .rFetch) : ReadProgress base h d obf t := by
  obtain ⟨ready, rfl, rfl, rfl, rs, count, good, stored, aw⟩ := (readProgress_rFetch hq).mp hp
  have request : s.seq.requestInstr s.handle = some (.tReadByte 0 0 s.handle) := by rw [hq]; rfl
  have ends {u : State} (hx : exec (.tReadByte 0 0 s.handle) s = .next u) : u.advance = t :=
    Host.Outcome.next.inj ((hs.step_of_request hr request hx).symm.trans hstep)
  obtain ⟨waits, failed, more, last, -⟩ := Proofs.fetchMicroStep s 0 0 _ _ hq aw
  cases ha : s.inputs.ack with
  | none =>
    obtain rfl := ends (waits ha)
    exact (readProgress_rFetch (by exact hq)).mpr ⟨ready, rfl, rfl, rfl, rs, count, good, stored, rfl⟩
  | some r =>
    cases hn : negative r with
    | true =>
      obtain rfl := ends (failed r ha hn)
      have mode : (s.sess == .ready && s.obf) = s.obf := by simp [ready]
      refine ⟨ready, rfl, rfl, rfl, rfl, mode, .inr ⟨rfl, rfl, rs, r, count ▸ hs.cnt_le, good, hn, ?_⟩⟩
      rw [fetches_concat]
      rfl
    | false =>
      have goods := good_concat good hn
      obtain short | full := Nat.lt_or_eq_of_le hs.cnt_le
      · obtain ⟨m, hx, new, old⟩ := more r ha hn short
        obtain rfl := ends hx
        have next : (rs ++ [r]).length = (s.cnt + 1).toNat := by
          rw [List.length_append, List.length_singleton, count]
          bv_omega
        refine (readProgress_rFetch (by rfl)).mpr
          ⟨ready, rfl, rfl, rfl, rs ++ [r], next, goods, stored.concat (count ▸ new) (count ▸ old), ?_⟩
        rw [fetches_concat]
        exact awaiting_of_not_valid rfl
      · obtain ⟨m, hx, new, old⟩ := last r ha hn full
        obtain rfl := ends hx
        have five : rs.length = 5 := count.trans full
        refine (readProgress_rDecode (by rfl)).mpr
          ⟨ready, rfl, rfl, rfl, rs ++ [r], by simp [five], goods, stored.concat (five ▸ new) (five ▸ old), ?_⟩
        rw [fetches_concat]
        rfl

end

/-! ### A read cycle whose answers are there at once (R140) -/

/-- A read cycle from the state `b`, at its next fetch: the good answers `rs` have come since, `m` is the frame they
left, and `ps` are the samples of the inputs, this step's first. -/
def State.fetched (b : State) (rs : List Word32) (m : List Host.Cell) (ps : List Inputs) : State :=
  { b with
    seq := .rFetch, cnt := BitVec.ofNat 3 rs.length, frame := m, tReqWord := requestWord b.handle 0 0 0x03,
    tReqValid := false, trace := fetches b.handle rs ++ b.trace, inputs := ps.headD Inputs.quiet, later := ps.tail }

theorem toNat_cnt_fetched {b : State} {rs : List Word32} {m : List Host.Cell} {ps : List Inputs}
    (h : rs.length ≤ 5) : (b.fetched rs m ps).cnt.toNat = rs.length :=
  Nat.mod_eq_of_lt (show rs.length < 2 ^ 3 by omega)

/-- One more good answer moves CNT on and stands on top of the trace. -/
theorem State.fetched_concat (b : State) (rs : List Word32) (r : Word32) (m : List Host.Cell) (ps : List Inputs) :
    b.fetched (rs ++ [r]) m ps =
      { b.fetched rs m ps with
        cnt := (b.fetched rs m ps).cnt + 1,
        trace := .busReadByte b.handle (some r) :: (b.fetched rs m ps).trace } := by
  rw [State.fetched, fetches_concat, List.length_append, BitVec.ofNat_add]
  rfl

/-- The wait of a read cycle is ended at once: the first fetch is next. -/
theorem Invariant.run_readWait {s : State} (hs : Invariant s) (hq : s.seq = .rWait) (noWait : s.wStart = false)
    (ends : s.inputs.endsWait) (k : Nat) :
    let u : State :=
      { s with
        wStart := false, trace := .wait s.delay :: s.trace, cnt := 0, seq := .rFetch,
        tReqWord := requestWord s.handle 0 0 0x03, inputs := s.later.headD Inputs.quiet, later := s.later.tail }
    Invariant u ∧ Host.Core.run Sys2Proof.core (k + 1) s = Host.Core.run Sys2Proof.core k u := by
  obtain ⟨noReset, ended⟩ := ends
  obtain ⟨-, starts⟩ := Proofs.readWaitMicroStep s _ hq noReset (awaitingTime_of_not_started noWait)
  exact ⟨Proofs.stepKeepsInv _ _ hs (starts ended), run_succ (starts ended) k⟩

/-- A read cycle is accepted in IDLE, its request byte answered and its wait ended at once: the first fetch is next. -/
theorem Invariant.run_toFetches {s : State} {w : CommandWord} {rest : List CommandWord} {st : Word32} {p p' : Inputs}
    {ps : List Inputs} (hs : Invariant s) (hq : s.seq = .idle) (ready : s.sess = .ready) (hr : s.inputs.rst = false)
    (hc : s.cmds = w :: rest) (op : opcodeOf w = 0x02 ∨ opcodeOf w = 0x03) (hl : s.later = p :: p' :: ps)
    (answers : p.answers st) (ends : p'.endsWait) (k : Nat) :
    let b : State :=
      { s.clearResponse with cmds := rest, wStart := false, trace := cycleStart s.handle s.delay ++ s.trace }
    Invariant (b.fetched [] s.frame ps) ∧
      Host.Core.run Sys2Proof.core (k + 3) s = Host.Core.run Sys2Proof.core k (b.fetched [] s.frame ps) := by
  obtain ⟨noReset, answer⟩ := answers
  obtain ⟨noRequest, noWait⟩ := hs.nothing_outstanding hq
  obtain ⟨i, hi, hd⟩ : ∃ i, (i = .rdraw ∨ i = .rdval) ∧ decodeCommand w = .ok i :=
    op.elim (fun h => ⟨_, .inl rfl, Laws.decodeCommand_rdraw h⟩) fun h => ⟨_, .inr rfl, Laws.decodeCommand_rdval h⟩
  obtain ⟨starts, -⟩ := Proofs.readAcceptance { s with cmds := rest } i hi hq
  have accepted := step_to_sample (step_of_command hr hq hc hd (starts ready)) hl
  have hs1 := Proofs.stepKeepsInv _ _ hs accepted
  have requested :=
    step_to_sample (hs1.step_byteAnswered noReset rfl (awaiting_of_not_valid noRequest) answer) rfl
  have hs2 := Proofs.stepKeepsInv _ _ hs1 requested
  obtain ⟨hs3, started⟩ := hs2.run_readWait rfl noWait ends k
  exact ⟨hs3, (run_succ accepted (k + 2)).trans ((run_succ requested (k + 1)).trans started)⟩

section
variable {b : State} {rs : List Word32} {m : List Host.Cell} {p : Inputs} {ps : List Inputs} {r : Word32}

/-- A good byte before the sixth is answered at once: the next fetch is next. -/
theorem Invariant.run_fetched (hs : Invariant (b.fetched rs m (p :: ps))) (stored : Stored m rs)
    (short : rs.length < 5) (answers : p.answers r) (hn : negative r = false) (k : Nat) :
    ∃ m', Stored m' (rs ++ [r]) ∧ Invariant (b.fetched (rs ++ [r]) m' ps) ∧
      Host.Core.run Sys2Proof.core (k + 1) (b.fetched rs m (p :: ps)) =
        Host.Core.run Sys2Proof.core k (b.fetched (rs ++ [r]) m' ps) := by
  obtain ⟨noReset, answer⟩ := answers
  have count := toNat_cnt_fetched (b := b) (m := m) (ps := p :: ps) (Nat.le_of_lt short)
  obtain ⟨-, -, more, -⟩ :=
    Proofs.fetchMicroStep (b.fetched rs m (p :: ps)) 0 0 b.handle _ rfl (awaiting_of_not_valid rfl)
  obtain ⟨m', hx, new, old⟩ := more r answer hn (count ▸ short)
  rw [count] at new old
  have fetched : step (b.fetched rs m (p :: ps)) = .next (b.fetched (rs ++ [r]) m' ps) := by
    rw [State.fetched_concat]
    exact hs.step_of_request noReset rfl hx
  exact ⟨m', stored.concat new old, Proofs.stepKeepsInv _ _ hs fetched, run_succ fetched k⟩

/-- Good bytes before the sixth are answered at once, one in each step; `news` are the samples with the answers they
bring. -/
theorem Invariant.run_fetches {news : List (Inputs × Word32)} (hs : Invariant (b.fetched rs m (news.map Prod.fst ++ ps)))
    (stored : Stored m rs) (short : rs.length + news.length ≤ 5)
    (good : ∀ q ∈ news, q.1.answers q.2 ∧ negative q.2 = false) (k : Nat) :
    ∃ m', Stored m' (rs ++ news.map Prod.snd) ∧ Invariant (b.fetched (rs ++ news.map Prod.snd) m' ps) ∧
      Host.Core.run Sys2Proof.core (k + news.length) (b.fetched rs m (news.map Prod.fst ++ ps)) =
        Host.Core.run Sys2Proof.core k (b.fetched (rs ++ news.map Prod.snd) m' ps) := by
  induction news generalizing rs m with
  | nil =>
    rw [List.map_nil, List.append_nil]
    exact ⟨m, stored, hs, rfl⟩
  | cons q news ih =>
    obtain ⟨⟨first, hn⟩, good'⟩ := List.forall_mem_cons.mp good
    rw [List.length_cons] at short
    obtain ⟨m1, stored1, hs1, run1⟩ := hs.run_fetched stored (by omega) first hn (k + news.length)
    have short' : (rs ++ [q.2]).length + news.length ≤ 5 := by
      rw [List.length_append, List.length_singleton]
      omega
    obtain ⟨m', stored', hs', run'⟩ := ih hs1 stored1 short' good'
    rw [List.append_assoc] at stored' hs' run'
    exact ⟨m', stored', hs', run1.trans run'⟩

/-- The sixth byte is answered at once: decoding is next. -/
theorem Invariant.run_lastFetched (hs : Invariant (b.fetched rs m (p :: ps))) (stored : Stored m rs)
    (five : rs.length = 5) (answers : p.answers r) (hn : negative r = false) (k : Nat) :
    ∃ m', Stored m' (rs ++ [r]) ∧
      Host.Core.run Sys2Proof.core (k + 1) (b.fetched rs m (p :: ps)) =
        Host.Core.run Sys2Proof.core k
          { b.fetched rs m' ps with seq := .rDecode, trace := fetches b.handle (rs ++ [r]) ++ b.trace } := by
  obtain ⟨noReset, answer⟩ := answers
  have count := toNat_cnt_fetched (b := b) (m := m) (ps := p :: ps) (Nat.le_of_eq five)
  obtain ⟨-, -, -, last, -⟩ :=
    Proofs.fetchMicroStep (b.fetched rs m (p :: ps)) 0 0 b.handle _ rfl (awaiting_of_not_valid rfl)
  obtain ⟨m', hx, new, old⟩ := last r answer hn (count.trans five)
  have fetched := hs.step_of_request noReset rfl hx
  rw [fetches_concat]
  exact ⟨m', stored.concat (five ▸ new) (five ▸ old), run_succ fetched k⟩

end

end Sys2Proof.Machine
end

section
/-! SUPPORT. The statements about the whole of a read cycle: its events at every step, and its run when everything is
answered at once. -/

namespace Sys2Proof.Proofs

open Sys2Proof Sys2Proof.Machine

/-- Settles O46: the acceptance has the two endings of R141, and in each phase of a read cycle a step keeps the
progress. -/
theorem readCycleIssuesExactlyItsEvents : Obligations.ReadCycleIssuesExactlyItsEvents := by
  refine ⟨fun s t w rest i hs hr hq hc hd hi h => ?accepted, fun base h d obf s t hs hr hq hp hstep => ?progress⟩
  case accepted =>
    obtain ⟨starts, refused⟩ := readAcceptance { s with cmds := rest } i hi hq
    have ends {u : State} (hx : exec i { s with cmds := rest } = .next u) : u.advance = t :=
      Host.Outcome.next.inj ((step_of_command hr hq hc hd hx).symm.trans h)
    by_cases ready : s.sess = .ready
    · obtain rfl := ends (starts ready)
      obtain ⟨quiet, -⟩ := hs.nothing_outstanding hq
      exact .inr ⟨rfl, ready, (readProgress_rReq (by rfl)).mpr ⟨ready, rfl, rfl, rfl, awaiting_of_not_valid quiet⟩⟩
    · obtain rfl := ends (refused ready)
      exact .inl ⟨hq, rfl, rfl, rfl, ready⟩
  case progress =>
    have running := hp.inRead hq
    cases hphase : s.seq with
    | rReq => exact readProgress_step_rReq hs hr hp hstep hphase
    | rWait => exact readProgress_step_rWait hs hr hp hstep hphase
    | rFetch => exact readProgress_step_rFetch hs hr hp hstep hphase
    | rDecode => exact readProgress_step_rDecode hr hp hstep hphase
    | idle | iOpen | iWObf | iWPl1 | iWPl2 | iWait => rw [hphase] at running; cases running

/-- Settles O48: the acceptance, the request byte and the wait take three steps, the fetches six, and the decoding is the
tenth. -/
theorem readCycleRunsToSample : Obligations.ReadCycleRunsToSample := by
  intro s w rest st r0 r1 r2 r3 r4 r5 p1 p2 p3 p4 p5 p6 p7 p8 p9 ps hs hq ready hr hc op hl ans ends
    a0 a1 a2 a3 a4 a5 noReset good
  simp only [List.forall_mem_cons] at good
  obtain ⟨n0, n1, n2, n3, n4, n5, -⟩ := good
  have answers : ∀ q ∈ [(p3, r0), (p4, r1), (p5, r2), (p6, r3), (p7, r4)], q.1.answers q.2 ∧ negative q.2 = false := by
    simp only [List.forall_mem_cons]
    exact ⟨⟨a0, n0⟩, ⟨a1, n1⟩, ⟨a2, n2⟩, ⟨a3, n3⟩, ⟨a4, n4⟩, nofun⟩
  obtain ⟨hs3, started⟩ := hs.run_toFetches hq ready hr hc op hl ans ends 7
  obtain ⟨m5, stored5, hs8, fetched⟩ := Invariant.run_fetches hs3 (stored_nil _) (by exact Nat.le_refl 5) answers 2
  obtain ⟨m, stored, last⟩ := hs8.run_lastFetched stored5 rfl a5 n5 1
  have mode : (s.sess == .ready && s.obf) = s.obf := by simp [ready]
  have run := (started.trans (fetched.trans last)).trans
    (run_succ (step_rDecode_of_raw (by exact noReset) (by rfl) stored.raw_eq) 0)
  exact ⟨_, run, rfl, rfl, rfl, mode, rfl, rfl, ready, rfl, rfl, rfl, rfl⟩

end Sys2Proof.Proofs
end

section
/-! SUPPORT. The transform as arithmetic on the byte `b XOR 0x17` (42_deobfuscation.md R160, R164, R165). -/

namespace Sys2Proof.Machine

/-- The transform adds `0x17` to the byte `b XOR 0x17`, and nine bits hold the sum (R160). -/
theorem toNat_decodeByte (b : Byte) : (decodeByte b).toNat = (b ^^^ 0x17).toNat + 0x17 :=
  (toNat_transformed true b).trans (congrArg (· + 0x17) (BitVec.toNat_xor b 0x17).symm)

/-- The inverse of R164: what is left without `0x17` is `b XOR 0x17`. -/
theorem ofNat_decodeByte_sub_xor (b : Byte) : BitVec.ofNat 8 ((decodeByte b).toNat - 0x17) ^^^ 0x17 = b := by
  rw [toNat_decodeByte, Nat.add_sub_cancel, BitVec.ofNat_toNat, BitVec.setWidth_eq, BitVec.xor_assoc, BitVec.xor_self,
    BitVec.xor_zero]

/-- The transform is injective (R164). -/
theorem decodeByte_injective : Function.Injective decodeByte := by
  intro b c h
  rw [← ofNat_decodeByte_sub_xor b, h, ofNat_decodeByte_sub_xor]

/-- Addition of naturals is exclusive-or plus twice the carries. -/
theorem xor_add_two_mul_and (m n : Nat) : (m ^^^ n) + 2 * (m &&& n) = m + n := by
  induction m using Nat.strongRecOn generalizing n with
  | ind m ih =>
    obtain rfl | pos := Nat.eq_zero_or_pos m
    · rw [Nat.zero_xor, Nat.zero_and]
      omega
    · have half := ih (m / 2) (Nat.div_lt_self pos (by decide)) (n / 2)
      rw [← Nat.xor_div_two, ← Nat.and_div_two] at half
      have low_xor : (m ^^^ n) % 2 = 1 ↔ ¬(m % 2 = 1 ↔ n % 2 = 1) := Nat.xor_mod_two_eq_one
      have low_and : (m &&& n) % 2 = 1 ↔ m % 2 = 1 ∧ n % 2 = 1 := Nat.and_mod_two_eq_one
      omega

/-- The transform adds `0x17` twice and takes away twice the bits that `b` shares with it, so it fixes the bytes that
hold all of them (R165). -/
theorem decodeByte_eq_setWidth_iff (b : Byte) : decodeByte b = b.setWidth 9 ↔ b &&& 0x17 = 0x17 := by
  have carries : (b ^^^ 0x17).toNat + 2 * (b &&& 0x17).toNat = b.toNat + 0x17 := by
    rw [BitVec.toNat_xor, BitVec.toNat_and]
    exact xor_add_two_mul_and b.toNat 0x17
  have wide : (b.setWidth 9).toNat = b.toNat := BitVec.toNat_setWidth_of_le (show 8 ≤ 9 by decide)
  have const : (0x17 : Byte).toNat = 0x17 := rfl
  rw [← BitVec.toNat_inj, ← BitVec.toNat_inj, toNat_decodeByte, wide, const]
  omega

/-- `0x17` is bits `[2:0]` and bit 4 (R165). -/
theorem and_0x17_eq_iff :
    ∀ b : Byte, b &&& 0x17 = 0x17 ↔ b.extractLsb' 0 3 = 0b111 ∧ b.getLsbD 4 = true := by decide

/-- The bytes whose exclusive-or with `0x17` is at least `0xE9` (R162). -/
theorem le_xor_0x17_iff :
    ∀ b : Byte, 0xE9 ≤ b ^^^ 0x17 ↔ (0xE0 ≤ b ∧ b ≤ 0xEF) ∨ (0xF8 ≤ b ∧ b ≤ 0xFE) := by decide

/-- The ninth bit is set when `b XOR 0x17` is at least `0xE9` (R162). -/
theorem lt_toNat_decodeByte_iff (b : Byte) : 0xFF < (decodeByte b).toNat ↔ 0xE9 ≤ b ^^^ 0x17 := by
  have const : (0xE9 : Byte).toNat = 0xE9 := rfl
  rw [toNat_decodeByte, BitVec.le_def, const]
  omega

/-- The range of the transform (R163). -/
theorem toNat_decodeByte_mem_range (b : Byte) : 0x17 ≤ (decodeByte b).toNat ∧ (decodeByte b).toNat ≤ 0x116 := by
  have byte : (b ^^^ 0x17).toNat < 2 ^ 8 := (b ^^^ 0x17).isLt
  rw [toNat_decodeByte]
  omega

end Sys2Proof.Machine
end

section
/-! SUPPORT. The statements about the transform, each from its arithmetic. -/

namespace Sys2Proof.Proofs

open Sys2Proof Sys2Proof.Machine

/-- Settles O8: the sum fits nine bits, and the two examples are evaluated. -/
theorem transformIsExact : Obligations.TransformIsExact :=
  ⟨toNat_transformed true, by decide, by decide⟩

/-- Settles O9: the range is that of a byte plus `0x17`, its ends are taken once because the transform is injective, and
the fixed points are the bytes that hold every bit of `0x17`. -/
theorem transformShape : Obligations.TransformShape := by
  refine ⟨fun b => ?ninthBit, toNat_decodeByte_mem_range, fun b => ⟨?minimum, ?maximum⟩, ofNat_decodeByte_sub_xor,
    fun b => ?fixed⟩
  case ninthBit => exact (lt_toNat_decodeByte_iff b).trans (le_xor_0x17_iff b)
  case minimum =>
    have least : decodeByte 0x17 = 0x017 := by decide
    exact least ▸ decodeByte_injective.eq_iff
  case maximum =>
    have greatest : decodeByte 0xE8 = 0x116 := by decide
    exact greatest ▸ decodeByte_injective.eq_iff
  case fixed => exact (decodeByte_eq_setWidth_iff b).trans (and_0x17_eq_iff b)

end Sys2Proof.Proofs
end

section
/-! SUPPORT. The unpacker as arithmetic: each field of the sixth value is a quotient and a remainder by powers of two, and
an axis is its high value above one of them (43_frame_unpack.md R173 to R181). -/

namespace Sys2Proof.Machine

/-- A mask of `width` ones at `shift` cuts the field of that width out of a number (R181). -/
theorem and_mask_shiftRight (n width shift : Nat) :
    (n &&& (2 ^ width - 1) <<< shift) >>> shift = n / 2 ^ shift % 2 ^ width := by
  rw [Nat.shiftRight_and_distrib, Nat.shiftLeft_shiftRight, Nat.and_two_pow_sub_one_eq_mod, Nat.shiftRight_eq_div_pow]

/-- The shifted high value has zeros where the two bits of `d5` go, so an axis is their sum (R181). -/
theorem axis_eq_add (high d5 shift : Nat) :
    axis high d5 ((2 ^ 2 - 1) <<< shift) shift = 4 * high + d5 / 2 ^ shift % 4 := by
  have low_lt : d5 / 2 ^ shift % 2 ^ 2 < 2 ^ 2 := Nat.mod_lt _ (by decide)
  calc (high <<< 2) ||| ((d5 &&& (2 ^ 2 - 1) <<< shift) >>> shift)
      = (high <<< 2) ||| (d5 / 2 ^ shift % 2 ^ 2) := by rw [and_mask_shiftRight]
    _ = high <<< 2 + d5 / 2 ^ shift % 2 ^ 2 := (Nat.shiftLeft_add_eq_or_of_lt low_lt high).symm
    _ = 4 * high + d5 / 2 ^ shift % 4 := by omega

/-- The seven fields as quotients and remainders (R171 to R177). -/
theorem unpack_eq (d0 d1 d2 d3 d4 d5 : Nat) :
    unpack d0 d1 d2 d3 d4 d5 =
      ⟨d0, d1, 4 * d2 + d5 / 64 % 4, 4 * d3 + d5 / 16 % 4, 4 * d4 + d5 / 4 % 4, d5 / 2 % 2, d5 % 2⟩ := by
  have x : axis d2 d5 0xC0 6 = 4 * d2 + d5 / 64 % 4 := axis_eq_add d2 d5 6
  have y : axis d3 d5 0x30 4 = 4 * d3 + d5 / 16 % 4 := axis_eq_add d3 d5 4
  have z : axis d4 d5 0x0C 2 = 4 * d4 + d5 / 4 % 4 := axis_eq_add d4 d5 2
  have c : (d5 &&& 0x02) >>> 1 = d5 / 2 % 2 := and_mask_shiftRight d5 1 1
  rw [unpack, x, y, z, c, Nat.and_one_is_mod]

/-- The fields keep the first five values whole and the low eight bits of the sixth (R180). -/
theorem unpack_inj {d0 d1 d2 d3 d4 d5 e0 e1 e2 e3 e4 e5 : Nat}
    (h : unpack d0 d1 d2 d3 d4 d5 = unpack e0 e1 e2 e3 e4 e5) :
    d0 = e0 ∧ d1 = e1 ∧ d2 = e2 ∧ d3 = e3 ∧ d4 = e4 ∧ d5 % 2 ^ 8 = e5 % 2 ^ 8 := by
  rw [unpack_eq, unpack_eq, Fields.mk.injEq] at h
  omega

/-- Transformed values between two bounds put the joystick registers between them and the accelerometer registers between
four times the bounds, with the two low bits above (R178). -/
theorem sampleOf_bounds {obf : Bool} {lo hi : Nat}
    (h : ∀ b, lo ≤ (transformed obf b).toNat ∧ (transformed obf b).toNat ≤ hi) (f : RawFrame) :
    let x := sampleOf obf f
    lo ≤ x.jx.toNat ∧ x.jx.toNat ≤ hi ∧ lo ≤ x.jy.toNat ∧ x.jy.toNat ≤ hi ∧
    4 * lo ≤ x.ax.toNat ∧ x.ax.toNat ≤ 4 * hi + 3 ∧ 4 * lo ≤ x.ay.toNat ∧ x.ay.toNat ≤ 4 * hi + 3 ∧
    4 * lo ≤ x.az.toNat ∧ x.az.toNat ≤ 4 * hi + 3 := by
  have axis_bounds (b : Byte) (n : Nat) :
      4 * lo ≤ 4 * (transformed obf b).toNat + n % 4 ∧ 4 * (transformed obf b).toNat + n % 4 ≤ 4 * hi + 3 := by
    obtain ⟨lower, upper⟩ := h b
    omega
  have fields := fields_sampleOf obf f
  rw [fieldsOf, unpack_eq, Sample.fields, Fields.mk.injEq] at fields
  obtain ⟨jx, jy, ax, ay, az, -⟩ := fields
  dsimp only
  rw [jx, jy, ax, ay, az]
  simp only [h, axis_bounds, and_self]

/-- The low eight bits of a transformed value determine the byte, although bit 8 is left out: adding `0x17` modulo 256 is a
bijection of the bytes (R183). -/
theorem transformed_mod_injective (obf : Bool) : Function.Injective fun b => (transformed obf b).toNat % 2 ^ 8 := by
  have low (b : Byte) : BitVec.ofNat 8 ((transformed obf b).toNat % 2 ^ 8) = if obf then (b ^^^ 0x17) + 0x17 else b := by
    apply BitVec.eq_of_toNat_eq
    rw [toNat_transformed]
    cases obf with
    | false => simp [b.isLt]
    | true => simp
  intro b c h
  have bytes := congrArg (BitVec.ofNat 8) h
  simp only [low] at bytes
  cases obf with
  | false => exact bytes
  | true => exact (BitVec.xor_left_inj 0x17).mp ((BitVec.add_left_inj 0x17).mp bytes)

/-- So does the whole transformed value (R164). -/
theorem transformed_toNat_injective (obf : Bool) : Function.Injective fun b => (transformed obf b).toNat :=
  fun _ _ h => transformed_mod_injective obf (congrArg (· % 2 ^ 8) h)

end Sys2Proof.Machine
end

section
/-! SUPPORT. The statements about the unpacker, each from its arithmetic. -/

namespace Sys2Proof.Proofs

open Sys2Proof Sys2Proof.Machine

/-- Settles O10: each of the three masks is two ones at the axis's shift. -/
theorem axisIsHighAndLowParts : Obligations.AxisIsHighAndLowParts :=
  fun high d5 => ⟨axis_eq_add high d5 6, axis_eq_add high d5 4, axis_eq_add high d5 2⟩

/-- Settles O11: the bounds are those of a byte in Plain mode and of the transform in Obfuscated mode. -/
theorem resultRangesByMode : Obligations.ResultRangesByMode := by
  refine fun f => ⟨?plain, ?obfuscated⟩
  case plain =>
    have byte (b : Byte) : 0 ≤ (transformed false b).toNat ∧ (transformed false b).toNat ≤ 255 := by
      have plain : (transformed false b).toNat = b.toNat := toNat_transformed false b
      exact ⟨Nat.zero_le _, plain ▸ Nat.le_of_lt_succ b.isLt⟩
    obtain ⟨-, jx, -, jy, -, ax, -, ay, -, az⟩ := sampleOf_bounds byte f
    exact ⟨jx, jy, ax, ay, az⟩
  case obfuscated => exact sampleOf_bounds (obf := true) toNat_decodeByte_mem_range f

/-- Settles O12: the registers hold the fields, the fields hold the first five transformed values and the low eight bits of
the sixth, and each of these determines its byte. -/
theorem sampleDeterminesFrame : Obligations.SampleDeterminesFrame := by
  rintro obf ⟨b0, b1, b2, b3, b4, b5⟩ ⟨c0, c1, c2, c3, c4, c5⟩ same
  have fields := congrArg Sample.fields same
  rw [fields_sampleOf, fields_sampleOf] at fields
  obtain ⟨d0, d1, d2, d3, d4, d5⟩ := unpack_inj fields
  have whole {b c : Byte} (h : (transformed obf b).toNat = (transformed obf c).toNat) : b = c :=
    transformed_toNat_injective obf h
  rw [RawFrame.mk.injEq]
  exact ⟨whole d0, whole d1, whole d2, whole d3, whole d4, transformed_mod_injective obf d5⟩

end Sys2Proof.Proofs
end

section
/-! SUPPORT. The commands that are over at acceptance as equations on the whole state (44_value_mapper_and_query.md R192,
R193). -/

namespace Sys2Proof.Machine

/-! ### ISOBF (R192) -/

/-- ISOBF is taken in IDLE. -/
theorem exec_isobf_of_idle {s : State} (hq : s.seq = .idle) : exec .isobf s = .next (answerMode s) := by
  rw [exec_isobf, whenTaken_taken _ (by simp [takenIn, hq])]

theorem answerMode_ready {s : State} (hs : s.sess = .ready) : answerMode s = s.clearResponse.respond statusOk := by
  obtain ⟨notReady, -⟩ | ⟨-, answered⟩ := answerMode_cases (s := s)
  · exact absurd hs notReady
  · exact answered

theorem answerMode_refused {s : State} (hs : s.sess ≠ .ready) :
    answerMode s = s.clearResponse.raiseError .stateRefusal := by
  obtain ⟨-, refused⟩ | ⟨ready, -⟩ := answerMode_cases (s := s)
  · exact refused
  · exact absurd ready hs

/-- An answer without a sample, given in IDLE, writes the response register alone. -/
theorem respond_of_idle {s : State} (hq : s.seq = .idle) (st : Byte) :
    s.clearResponse.respond st =
      { s with rValid := true, rStatus := st, rObf := s.sess == .ready && s.obf, x := Sample.zero } := by
  rw [hq]
  rfl

/-! ### A word with an undefined opcode (R193) -/

/-- The opcodes of the commands are 1 to 4, so a word below or above them is no command (30_encoding.md R103). -/
theorem decodeCommand_of_undefined {w : CommandWord} (h : opcodeOf w = 0x00 ∨ 0x05 ≤ opcodeOf w) :
    decodeCommand w = .error (.illegalOpcode (opcodeOf w)) := by
  have other {op : Byte} (hop : 0x00 < op ∧ op < 0x05) : opcodeOf w ≠ op := by bv_omega
  exact Laws.decodeCommand_illegal (other (by decide)) (other (by decide)) (other (by decide)) (other (by decide))

/-- Without reset a step in IDLE accepts a presented word that is no command, and the word leaves the port. -/
theorem step_of_illegal {s : State} {w : CommandWord} {rest : List CommandWord} {e : Reject}
    (hr : s.inputs.rst = false) (hq : s.seq = .idle) (hc : s.cmds = w :: rest) (hd : decodeCommand w = .error e) :
    step s = .next (illegalCommand { s with cmds := rest }).advance := by
  have taken : s.takeCommand = { s with cmds := rest } := by rw [State.takeCommand, hc]; rfl
  rw [step, if_neg (by simp [hr]), microStep_illegal hq hc hd, taken, mapNext]

end Sys2Proof.Machine
end

section
/-! SUPPORT. The statements about RDVAL, ISOBF and words with an undefined opcode. -/

namespace Sys2Proof.Proofs

open Sys2Proof Sys2Proof.Machine

/-- Settles O20: a word with an undefined opcode is no command, and its error keeps the session. -/
theorem illegalWordIsAnswered : Obligations.IllegalWordIsAnswered := by
  intro s w rest hr hq hc hop
  rw [step_of_illegal hr hq hc (decodeCommand_of_undefined hop), illegalCommand,
    raiseError_of_idle (s := { s with cmds := rest }) hq]
  rfl

/-- Settles O15: the grouped names are fields of the layout of the response word. -/
theorem groupedNamesReadTheFields : Obligations.GroupedNamesReadTheFields := by
  intro s
  obtain ⟨-, -, bc, bz, -, jx, jy, ax, ay, az⟩ := responseWordLayout s
  rw [grouped, jx, jy, ax, ay, az, bc, bz]

/-- Settles O18: in IDLE both accept a read cycle, and in any other phase neither is taken. -/
theorem rdvalDoesWhatRdrawDoes : Obligations.RdvalDoesWhatRdrawDoes := by
  intro s
  by_cases hq : s.seq = .idle
  · rw [exec_read (.inr rfl) hq, exec_read (.inl rfl) hq]
  · rw [exec_untaken (by simp [takenIn, hq]), exec_untaken (by simp [takenIn, hq])]

/-- Settles O19: the two endings of ISOBF, written out. -/
theorem isobfAnswersTheMode : Obligations.IsobfAnswersTheMode := by
  intro s hq
  rw [exec_isobf_of_idle hq]
  refine ⟨fun hs => ?ready, fun hs => ?refused⟩
  case ready =>
    rw [answerMode_ready hs, respond_of_idle hq]
    simp [statusOk, hs]
  case refused =>
    rw [answerMode_refused hs, raiseError_of_idle hq]
    simp [ErrorKind.session, ErrorKind.code, hs]

end Sys2Proof.Proofs
end

section
/-! SUPPORT. The steps that change nothing (60_exceptions.md R227, R228), and what a failed session does with a
presented word (R212). -/

namespace Sys2Proof.Machine

/-! ### Nothing awaited has come (R227, R228) -/

section
variable {s : State}

/-- A request that is outstanding is not issued again. -/
theorem issue_of_outstanding (hv : s.tReqValid = true) (e : Event) : s.issue e = s := by
  rw [State.issue, if_pos hv, ← hv]

/-- A wait that is outstanding is not asked for again. -/
theorem startWait_of_outstanding (hw : s.wStart = true) : s.startWait = s := by
  rw [State.startWait, if_pos hw, ← hw]

/-- With no answer a micro-step of a transport phase changes nothing while its request is outstanding. -/
theorem MicroStepTo.eq_of_unanswered {t : State} (hq : s.seq.transports = true) (hv : s.tReqValid = true)
    (ha : s.inputs.ack = none) (h : MicroStepTo s t) : t = s := by
  cases h with
  | standsIdle | ignoresRequest => rfl
  | awaitsAnswer e => exact issue_of_outstanding hv e
  | refuses _ hp | startsInit _ _ hp | startsRead hp | answersMode hp | finishesInit hp | startsFetching hp
  | decodes _ hp =>
    rw [hp] at hq
    cases hq
  | awaitsTime hp => obtain hp | hp := hp <;> rw [hp] at hq <;> cases hq
  | failsOpen _ _ _ _ hr | opens _ _ _ _ hr | writesRegister _ _ _ _ hr | writesByte _ _ _ _ hr
  | failsFetch _ _ _ _ hr | fetchesLast _ _ _ _ hr | fetches _ _ _ _ hr => cases ha.symm.trans hr

section
variable (hr : s.inputs.rst = false)
include hr

/-- In IDLE with no command presented only the inputs move on. -/
theorem step_no_command (hq : s.seq = .idle) (hc : s.cmds = []) : step s = .next s.advance :=
  step_next.mpr (.inr ⟨hr, s, microStep_idle hq hc, rfl⟩)

/-- While a request is outstanding and not answered only the inputs move on. -/
theorem Invariant.step_no_answer (hs : Invariant s) (hv : s.tReqValid = true) (ha : s.inputs.ack = none) :
    step s = .next s.advance := by
  obtain ⟨u, hu⟩ := hs.microStep_total
  obtain rfl := (MicroStepTo.of_next hu).eq_of_unanswered (hs.request_phase hv) hv ha
  exact step_next.mpr (.inr ⟨hr, u, hu, rfl⟩)

/-- While a wait is outstanding and has not ended only the inputs move on. -/
theorem Invariant.step_no_end (hs : Invariant s) (hw : s.wStart = true) (hd : s.inputs.wDone = false) :
    step s = .next s.advance := by
  obtain hq | hq := hs.wait_phase hw
  · rw [step_iWait hr hq, initWait, timedWait_unended hd, startWait_of_outstanding hw]
  · rw [step_rWait hr hq, readWait, timedWait_unended hd, startWait_of_outstanding hw]

end

/-! ### A failed session (R212) -/

/-- No command is in progress in a failed session: INIT runs in an uninitialised one and a read cycle in a Ready one. -/
theorem Invariant.idle_of_failed (hs : Invariant s) (failed : s.sess = .failed) : s.seq = .idle := by
  have notInit : s.seq.inInit = false := Bool.eq_false_iff.mpr fun hq => nomatch failed.symm.trans (hs.init_uninit hq)
  have notRead : ¬ s.seq.inRead = true := fun hq => nomatch failed.symm.trans (hs.read_ready hq)
  simpa [Phase.inRead, notInit] using notRead

/-- A failed session refuses every command that is taken (R204). -/
theorem exec_command_of_failed {w : CommandWord} {i : Instr} (hq : s.seq = .idle) (failed : s.sess = .failed)
    (hd : decodeCommand w = .ok i) : exec i s = .next (s.clearResponse.raiseError .stateRefusal) := by
  have notUninit : s.sess ≠ .uninit := by simp [failed]
  have notReady : s.sess ≠ .ready := by simp [failed]
  obtain ⟨delay, mode, rfl⟩ | rfl | rfl | rfl := decodeCommand_cases hd
  · rw [exec_init, whenTaken_taken _ (by simp [takenIn, hq]), acceptInit_refused notUninit]
  · rw [exec_read (.inl rfl) hq, acceptRead_refused notReady]
  · rw [exec_read (.inr rfl) hq, acceptRead_refused notReady]
  · rw [exec_isobf_of_idle hq, answerMode_refused notReady]

/-- The opcodes 1 to 4 are those of the commands (30_encoding.md R103). -/
theorem decodeCommand_of_defined {w : CommandWord} (h : 0x01 ≤ opcodeOf w ∧ opcodeOf w ≤ 0x04) :
    ∃ i, decodeCommand w = .ok i := by
  obtain hop | hop | hop | hop :
      opcodeOf w = 0x01 ∨ opcodeOf w = 0x02 ∨ opcodeOf w = 0x03 ∨ opcodeOf w = 0x04 := by bv_omega
  · exact ⟨_, Laws.decodeCommand_init hop⟩
  · exact ⟨_, Laws.decodeCommand_rdraw hop⟩
  · exact ⟨_, Laws.decodeCommand_rdval hop⟩
  · exact ⟨_, Laws.decodeCommand_isobf hop⟩

/-- The error with which a failed session answers a presented word: only a command is refused. -/
def failedSessionError (w : CommandWord) : ErrorKind :=
  if 0x01 ≤ opcodeOf w ∧ opcodeOf w ≤ 0x04 then .stateRefusal else .illegalCommand

theorem failedSessionError_code (w : CommandWord) :
    (failedSessionError w).code = if 0x01 ≤ opcodeOf w ∧ opcodeOf w ≤ 0x04 then 0x04 else 0x05 :=
  apply_ite ErrorKind.code _ _ _

theorem failedSessionError_ne_deviceUnavailable (w : CommandWord) : failedSessionError w ≠ .deviceUnavailable := by
  rw [failedSessionError]
  split <;> decide

/-- Without reset a step of a failed session in IDLE answers the presented word with its error, and no more. -/
theorem step_of_failed {w : CommandWord} {rest : List CommandWord} (hr : s.inputs.rst = false) (hq : s.seq = .idle)
    (failed : s.sess = .failed) (hc : s.cmds = w :: rest) :
    step s = .next (({ s with cmds := rest } : State).clearResponse.raiseError (failedSessionError w)).advance := by
  by_cases defined : 0x01 ≤ opcodeOf w ∧ opcodeOf w ≤ 0x04
  · obtain ⟨i, hd⟩ := decodeCommand_of_defined defined
    rw [failedSessionError, if_pos defined]
    exact step_of_command hr hq hc hd (exec_command_of_failed (s := { s with cmds := rest }) hq failed hd)
  · have undefined : opcodeOf w = 0x00 ∨ 0x05 ≤ opcodeOf w := by bv_omega
    rw [failedSessionError, if_neg defined]
    exact step_of_illegal hr hq hc (decodeCommand_of_undefined undefined)

end

end Sys2Proof.Machine
end

section
/-! SUPPORT. The statements about a block that waits and about a failed session. -/

namespace Sys2Proof.Proofs

open Sys2Proof Sys2Proof.Machine

/-- Settles O32: an outstanding request or wait is not issued again, and IDLE without a command runs nothing. -/
theorem unansweredBlockStandsStill : Obligations.UnansweredBlockStandsStill := by
  refine ⟨fun s hs hr waits => ?_, fun s hr hq hc => step_no_command hr hq hc⟩
  obtain ⟨hv, ha⟩ | ⟨hw, hd⟩ := waits
  · exact hs.step_no_answer hr hv ha
  · exact hs.step_no_end hr hw hd

/-- Settles O40: a failed session is in IDLE, where it stands still or answers the presented word with an error that
keeps the session. -/
theorem failedSessionRefusesEverything : Obligations.FailedSessionRefusesEverything := by
  intro s t hs failed hr h
  have idle := hs.idle_of_failed failed
  cases hc : s.cmds with
  | nil =>
    obtain rfl := Host.Outcome.next.inj ((step_no_command hr idle hc).symm.trans h)
    exact ⟨failed, idle, rfl, nofun⟩
  | cons w rest =>
    obtain rfl := Host.Outcome.next.inj ((step_of_failed hr idle failed hc).symm.trans h)
    refine ⟨(ErrorKind.session_eq (failedSessionError_ne_deviceUnavailable w) _).trans failed, rfl, rfl, ?_⟩
    rintro _ _ ⟨⟩
    exact ⟨rfl, failedSessionError_code w⟩

end Sys2Proof.Proofs
end

section
/-! SUPPORT. What a step reads of its inputs (70_reset_and_hazards.md R240, 60_exceptions.md R227): reset in every phase,
the transport's answer in the phases that issue a request, the end of a wait in the two waits. -/

namespace Sys2Proof.Machine

/-- The state with another sample at the inputs. -/
def State.withInputs (s : State) (p : Inputs) : State := { s with inputs := p }

/-- Once the inputs have moved on, the sample that stood there is forgotten. -/
theorem mapNext_advance_withInputs (p : Inputs) (o : Host.Outcome State Fault Refusal) :
    mapNext State.advance (mapNext (·.withInputs p) o) = mapNext State.advance o := by
  cases o <;> rfl

/-! ### The shared operations under another sample -/

section
variable {s : State} {p : Inputs}

theorem whenTaken_withInputs {i : Instr} {k : State → Host.Outcome State Fault Refusal}
    (hk : takenIn i s.seq = true → k (s.withInputs p) = mapNext (·.withInputs p) (k s)) :
    whenTaken i (s.withInputs p) k = mapNext (·.withInputs p) (whenTaken i s k) := by
  cases ht : takenIn i s.seq with
  | false => rw [whenTaken_untaken k ht, whenTaken_untaken (s := s.withInputs p) k ht, mapNext]
  | true => rw [whenTaken_taken k ht, whenTaken_taken (s := s.withInputs p) k ht, hk ht]

/-- With the same answer a transport micro-step does the same, if what goes on with the answer reads no input. -/
theorem transact_withInputs {e : Event} {k : Word32 → State → Host.Outcome State Fault Refusal}
    (ha : p.ack = s.inputs.ack) (hk : ∀ r u, k r (u.withInputs p) = mapNext (·.withInputs p) (k r u)) :
    transact (s.withInputs p) e k = mapNext (·.withInputs p) (transact s e k) := by
  obtain ⟨hn, ht⟩ | ⟨r, hs, ht⟩ := transact_cases (s := s) (e := e) (k := k) <;> rw [ht]
  · rw [transact, show (s.withInputs p).inputs.ack = none from ha.trans hn]
    rfl
  · rw [transact_some (s := s.withInputs p) (ha.trans hs)]
    exact hk r ((s.issue e).answered e r)

/-- With the same `w_done` a wait does the same, if what follows the wait reads no input. -/
theorem timedWait_withInputs {k : State → State} (hw : p.wDone = s.inputs.wDone)
    (hk : ∀ u, k (u.withInputs p) = (k u).withInputs p) :
    timedWait (s.withInputs p) k = (timedWait s k).withInputs p := by
  obtain ⟨hd, ht⟩ | ⟨hd, ht⟩ := timedWait_cases (s := s) (k := k) <;> rw [ht]
  · exact timedWait_unended (s := s.withInputs p) (hw.trans hd) k
  · rw [timedWait_ended (s := s.withInputs p) (hw.trans hd) k]
    exact hk s.endWait

/-! ### What reads no input at all -/

theorem acceptInit_withInputs (delay : Word32) (mode : Byte) :
    acceptInit delay mode (s.withInputs p) = (acceptInit delay mode s).withInputs p := by
  simp only [acceptInit, apply_ite (State.withInputs · p)]
  rfl

theorem acceptRead_withInputs : acceptRead (s.withInputs p) = (acceptRead s).withInputs p := by
  simp only [acceptRead, apply_ite (State.withInputs · p)]
  rfl

theorem answerMode_withInputs : answerMode (s.withInputs p) = (answerMode s).withInputs p := by
  simp only [answerMode, apply_ite (State.withInputs · p)]
  rfl

theorem openAnswered_withInputs (r : Word32) :
    openAnswered r (s.withInputs p) = (openAnswered r s).withInputs p := by
  simp only [openAnswered, apply_ite (State.withInputs · p)]
  rfl

theorem storeByte_withInputs (v : Byte) :
    storeByte v (s.withInputs p) = mapNext (·.withInputs p) (storeByte v s) := by
  obtain ⟨hc, hs⟩ | ⟨hc, hs⟩ | ⟨hc, hs⟩ := storeByte_cases (v := v) (s := s) <;> rw [hs]
  · exact storeByte_absent (s := s.withInputs p) hc v
  · exact storeByte_last (s := s.withInputs p) hc v
  · exact storeByte_more (s := s.withInputs p) hc v

theorem readDecode_withInputs : readDecode (s.withInputs p) = mapNext (·.withInputs p) (readDecode s) := by
  rw [readDecode, readDecode, show (s.withInputs p).frame = s.frame from rfl]
  cases Memory.raw s.frame <;> rfl

/-! ### Instructions, micro-steps and steps -/

/-- A transport request is taken in phases that issue one. -/
theorem transports_of_taken {i : Instr} {q : Phase} (hi : (eventOf i).isSome = true) (ht : takenIn i q = true) :
    q.transports = true := by
  cases i with
  | init | rdraw | rdval | isobf => cases hi
  | tOpen | tWriteByte | tReadByte =>
    obtain rfl := eq_of_beq ht
    rfl
  | tWriteReg =>
    obtain (rfl | rfl) | rfl : (q = .iWObf ∨ q = .iWPl1) ∨ q = .iWPl2 := by simpa [takenIn] using ht
    all_goals rfl

/-- An instruction reads no input but the answer, and that in the phases that issue a request. -/
theorem exec_withInputs (i : Instr) (ack : s.seq.transports = true → p.ack = s.inputs.ack) :
    exec i (s.withInputs p) = mapNext (·.withInputs p) (exec i s) := by
  cases i with
  | init delay mode =>
    rw [exec_init, exec_init]
    exact whenTaken_withInputs fun _ => congrArg Host.Outcome.next (acceptInit_withInputs delay mode)
  | rdraw =>
    rw [exec_rdraw, exec_rdraw]
    exact whenTaken_withInputs fun _ => congrArg Host.Outcome.next acceptRead_withInputs
  | rdval =>
    rw [exec_rdval, exec_rdval]
    exact whenTaken_withInputs fun _ => congrArg Host.Outcome.next acceptRead_withInputs
  | isobf =>
    rw [exec_isobf, exec_isobf]
    exact whenTaken_withInputs fun _ => congrArg Host.Outcome.next answerMode_withInputs
  | tOpen reg val handle =>
    rw [exec_tOpen, exec_tOpen]
    exact whenTaken_withInputs fun ht => transact_withInputs (ack (transports_of_taken rfl ht))
      fun r _ => congrArg Host.Outcome.next (openAnswered_withInputs r)
  | tWriteByte reg val handle =>
    rw [exec_tWriteByte, exec_tWriteByte]
    exact whenTaken_withInputs fun ht => transact_withInputs (ack (transports_of_taken rfl ht)) fun _ _ => rfl
  | tWriteReg reg val handle =>
    rw [exec_tWriteReg, exec_tWriteReg]
    exact whenTaken_withInputs fun ht => transact_withInputs (ack (transports_of_taken rfl ht)) fun _ _ => rfl
  | tReadByte reg val handle =>
    rw [exec_tReadByte, exec_tReadByte]
    refine whenTaken_withInputs fun ht => transact_withInputs (ack (transports_of_taken rfl ht)) fun r _ => ?_
    rw [apply_ite (mapNext (·.withInputs p)), storeByte_withInputs]
    rfl

/-- The waits are the micro-steps of their two phases. -/
theorem waits_of_nextMicro (h : nextMicro s = .initWait ∨ nextMicro s = .readWait) :
    s.seq = .iWait ∨ s.seq = .rWait := by
  unfold nextMicro fetchCommand fetchRequest at h
  grind

variable (ack : s.seq.transports = true → p.ack = s.inputs.ack)
  (ended : s.seq = .iWait ∨ s.seq = .rWait → p.wDone = s.inputs.wDone)
include ack ended

/-- A micro-step reads the answer in the phases that issue a request, the end of a wait in the waits, and no other
input. -/
theorem microStep_withInputs : microStep (s.withInputs p) = mapNext (·.withInputs p) (microStep s) := by
  rw [microStep, microStep, show nextMicro (s.withInputs p) = nextMicro s from rfl]
  cases hm : nextMicro s with
  | waitForCommand | illegal | noRequest => rfl
  | command i => exact exec_withInputs (s := s.takeCommand) i ack
  | request i => exact exec_withInputs i ack
  | initWait => exact congrArg _ (timedWait_withInputs (ended (waits_of_nextMicro (.inl hm))) fun _ => rfl)
  | readWait => exact congrArg _ (timedWait_withInputs (ended (waits_of_nextMicro (.inr hm))) fun _ => rfl)
  | readDecode => exact readDecode_withInputs

/-- Samples of the inputs that agree on reset and on what the phase waits for give the same step. -/
theorem step_withInputs (rst : p.rst = s.inputs.rst) : step (s.withInputs p) = step s := by
  rw [step, step, show (s.withInputs p).inputs.rst = s.inputs.rst from rst, microStep_withInputs ack ended,
    mapNext_advance_withInputs]
  rfl

end

/-- With reset asserted a step is the reset, in every state (70_reset_and_hazards.md R240). -/
theorem step_of_reset {s : State} (hr : s.inputs.rst = true) : step s = .next s.applyReset.advance :=
  step_next.mpr (.inl ⟨hr, rfl⟩)

end Sys2Proof.Machine
end

section
/-! SUPPORT. The statements about late answers and about reset. -/

namespace Sys2Proof.Proofs

open Sys2Proof Sys2Proof.Machine

/-- Settles O33: each part changes the one input that its phases do not read. -/
theorem lateAnswersAreIgnored : Obligations.LateAnswersAreIgnored := by
  refine ⟨fun s a quiet => ?_, fun s b notInit notRead => ?_⟩
  · exact step_withInputs (p := { s.inputs with ack := a }) (fun hq => nomatch quiet.symm.trans hq) (fun _ => rfl) rfl
  · exact step_withInputs (p := { s.inputs with wDone := b }) (fun _ => rfl)
      (fun hq => (hq.elim notInit notRead).elim) rfl

/-- Settles O34: the step is the reset, which writes every element with a reset value and neither the trace nor the
presented commands. -/
theorem resetWinsInEveryState : Obligations.ResetWinsInEveryState := fun _ hr =>
  ⟨_, step_of_reset hr, rfl, rfl, rfl, rfl, rfl, rfl, rfl, rfl, rfl, rfl, rfl⟩

end Sys2Proof.Proofs
end

section
/-! SUPPORT. Where a step stops: at `R_DECODE` on an incomplete frame, and in a transport phase on a word that is no
request (log entries 5 and 13). -/

namespace Sys2Proof.Machine

/-- A frame with an unwritten byte is no raw frame. -/
theorem Memory.raw_of_unwritten {m : List Host.Cell} {k : Nat} (hk : k < 6) (h : Memory.read m k = none) :
    Memory.raw m = none := by
  by_contra complete
  obtain ⟨f, hf⟩ := Option.ne_none_iff_exists'.mp complete
  obtain ⟨h0, h1, h2, h3, h4, h5⟩ := Memory.raw_eq_some.mp hf
  interval_cases k <;> simp_all only [reduceCtorEq]

/-- In a transport phase the next micro-step is the one fetched at the request register. -/
theorem nextMicro_of_transports {s : State} (hq : s.seq.transports = true) :
    nextMicro s = fetchRequest s.tReqWord := by
  cases hp : s.seq with
  | iOpen | iWObf | iWPl1 | iWPl2 | rReq | rFetch => simp only [nextMicro, hp]
  | idle | iWait | rWait | rDecode => simp [hp, Phase.transports, Phase.request] at hq

/-- In a transport phase a word that is no request is refused. -/
theorem microStep_noRequest {s : State} {e : Reject} (hq : s.seq.transports = true)
    (hd : decodeRequest s.tReqWord = .error e) : microStep s = .refused .undefinedRequest := by
  rw [microStep, nextMicro_of_transports hq, fetchRequest, hd]

end Sys2Proof.Machine
end

section
/-! SUPPORT. The statement about the model's stops. -/

namespace Sys2Proof.Proofs

open Sys2Proof Sys2Proof.Machine

/-- Settles O35: an unwritten byte leaves no raw frame to decode, and a word that decodes to no request leaves nothing to
run. -/
theorem stopsAreNamed : Obligations.StopsAreNamed := by
  refine ⟨fun s k hr hq hk unwritten => ?_, fun s e hr hq hd => ?_⟩
  · rw [step_rDecode hr hq, readDecode, Memory.raw_of_unwritten hk unwritten, mapNext]
  · rw [step, if_neg (by simp [hr]), microStep_noRequest hq hd, mapNext]

end Sys2Proof.Proofs
end
